-- ==== Sys2Proof/Word.lean ====
section
/-! DEFINITION. The two word types of the machine (00_scope.md rules R5 and R7): bytes and 16-bit addresses.
Slices, concatenation and extension stand in Decode.lean. -/

namespace Sys2Proof

/-- `bits8` of rule R7. -/
abbrev Byte := BitVec 8

/-- `bits16` of rule R7: addresses, the program counter, and 16-bit operands. -/
abbrev Addr := BitVec 16

end Sys2Proof
end

