-- ==== Sys2Proof/Syntax.lean ====
section
/-! DEFINITION. The instruction set as syntax (30_encoding.md): the 56 mnemonics, the 13 addressing modes, the
operands, and `Instr`, one constructor per row of spec/opcode_table.json. Every operand has the width its mode
gives it (rule R91), so an `Instr` cannot hold an operand that its encoding has no room for. -/

namespace Sys2Proof

/-- The 56 mnemonics of rule R92. -/
inductive Mnemonic where
  | adc | and | asl | bcc | bcs | beq | bit | bmi | bne | bpl | brk | bvc | bvs | clc
  | cld | cli | clv | cmp | cpx | cpy | dec | dex | dey | eor | inc | inx | iny | jmp
  | jsr | lda | ldx | ldy | lsr | nop | ora | pha | php | pla | plp | rol | ror | rti
  | rts | sbc | sec | sed | sei | sta | stx | sty | tax | tay | tsx | txa | txs | tya
deriving DecidableEq, Repr

/-- The 13 addressing modes of rule R91, by the rule's short names. -/
inductive Mode where
  | imp | acc | imm | zp | zpx | zpy | abs | absx | absy | ind | indx | indy | rel
deriving DecidableEq, Repr

/-- An operand that resolves to the effective address of one byte (rules R102 to R109). -/
inductive MemOperand where
  | zp (op : Byte)
  | zpx (op : Byte)
  | zpy (op : Byte)
  | abs (op : Addr)
  | absx (op : Addr)
  | absy (op : Addr)
  | indx (op : Byte)
  | indy (op : Byte)
deriving DecidableEq, Repr

/-- Where an 8-bit source value comes from (rule R111): the operand byte itself, the accumulator, or memory. -/
inductive Source where
  | imm (op : Byte)
  | acc
  | mem (m : MemOperand)
deriving DecidableEq, Repr

/-- What a shift or rotate modifies in place (rule R190). -/
inductive Place where
  | acc
  | mem (m : MemOperand)
deriving DecidableEq, Repr

/-- A concrete operand together with its addressing mode (rules R91 and R95). -/
inductive Operand where
  | imp
  | acc
  | imm (op : Byte)
  | mem (m : MemOperand)
  | ind (op : Addr)
  | rel (op : Byte)
deriving DecidableEq, Repr

/-- The instructions: one constructor per row of spec/opcode_table.json, named by mnemonic and mode. -/
inductive Instr where
  -- LDA, rule R141
  | ldaImm (op : Byte)
  | ldaZp (op : Byte)
  | ldaZpx (op : Byte)
  | ldaAbs (op : Addr)
  | ldaAbsx (op : Addr)
  | ldaAbsy (op : Addr)
  | ldaIndx (op : Byte)
  | ldaIndy (op : Byte)
  -- LDX, rule R142
  | ldxImm (op : Byte)
  | ldxZp (op : Byte)
  | ldxZpy (op : Byte)
  | ldxAbs (op : Addr)
  | ldxAbsy (op : Addr)
  -- LDY, rule R143
  | ldyImm (op : Byte)
  | ldyZp (op : Byte)
  | ldyZpx (op : Byte)
  | ldyAbs (op : Addr)
  | ldyAbsx (op : Addr)
  -- STA, rule R144
  | staZp (op : Byte)
  | staZpx (op : Byte)
  | staAbs (op : Addr)
  | staAbsx (op : Addr)
  | staAbsy (op : Addr)
  | staIndx (op : Byte)
  | staIndy (op : Byte)
  -- STX, rule R145
  | stxZp (op : Byte)
  | stxZpy (op : Byte)
  | stxAbs (op : Addr)
  -- STY, rule R146
  | styZp (op : Byte)
  | styZpx (op : Byte)
  | styAbs (op : Addr)
  -- TAX, rule R147
  | tax
  -- TAY, rule R148
  | tay
  -- TXA, rule R149
  | txa
  -- TYA, rule R150
  | tya
  -- TSX, rule R151
  | tsx
  -- TXS, rule R152
  | txs
  -- ADC, rule R161
  | adcImm (op : Byte)
  | adcZp (op : Byte)
  | adcZpx (op : Byte)
  | adcAbs (op : Addr)
  | adcAbsx (op : Addr)
  | adcAbsy (op : Addr)
  | adcIndx (op : Byte)
  | adcIndy (op : Byte)
  -- SBC, rule R162
  | sbcImm (op : Byte)
  | sbcZp (op : Byte)
  | sbcZpx (op : Byte)
  | sbcAbs (op : Addr)
  | sbcAbsx (op : Addr)
  | sbcAbsy (op : Addr)
  | sbcIndx (op : Byte)
  | sbcIndy (op : Byte)
  -- AND, rule R164
  | andImm (op : Byte)
  | andZp (op : Byte)
  | andZpx (op : Byte)
  | andAbs (op : Addr)
  | andAbsx (op : Addr)
  | andAbsy (op : Addr)
  | andIndx (op : Byte)
  | andIndy (op : Byte)
  -- ORA, rule R165
  | oraImm (op : Byte)
  | oraZp (op : Byte)
  | oraZpx (op : Byte)
  | oraAbs (op : Addr)
  | oraAbsx (op : Addr)
  | oraAbsy (op : Addr)
  | oraIndx (op : Byte)
  | oraIndy (op : Byte)
  -- EOR, rule R166
  | eorImm (op : Byte)
  | eorZp (op : Byte)
  | eorZpx (op : Byte)
  | eorAbs (op : Addr)
  | eorAbsx (op : Addr)
  | eorAbsy (op : Addr)
  | eorIndx (op : Byte)
  | eorIndy (op : Byte)
  -- BIT, rule R167
  | bitZp (op : Byte)
  | bitAbs (op : Addr)
  -- CMP, rule R168
  | cmpImm (op : Byte)
  | cmpZp (op : Byte)
  | cmpZpx (op : Byte)
  | cmpAbs (op : Addr)
  | cmpAbsx (op : Addr)
  | cmpAbsy (op : Addr)
  | cmpIndx (op : Byte)
  | cmpIndy (op : Byte)
  -- CPX, rule R169
  | cpxImm (op : Byte)
  | cpxZp (op : Byte)
  | cpxAbs (op : Addr)
  -- CPY, rule R170
  | cpyImm (op : Byte)
  | cpyZp (op : Byte)
  | cpyAbs (op : Addr)
  -- INC, rule R171
  | incZp (op : Byte)
  | incZpx (op : Byte)
  | incAbs (op : Addr)
  | incAbsx (op : Addr)
  -- DEC, rule R172
  | decZp (op : Byte)
  | decZpx (op : Byte)
  | decAbs (op : Addr)
  | decAbsx (op : Addr)
  -- INX, rule R173
  | inx
  -- INY, rule R174
  | iny
  -- DEX, rule R175
  | dex
  -- DEY, rule R176
  | dey
  -- ASL, rule R191
  | aslAcc
  | aslZp (op : Byte)
  | aslZpx (op : Byte)
  | aslAbs (op : Addr)
  | aslAbsx (op : Addr)
  -- LSR, rule R192
  | lsrAcc
  | lsrZp (op : Byte)
  | lsrZpx (op : Byte)
  | lsrAbs (op : Addr)
  | lsrAbsx (op : Addr)
  -- ROL, rule R193
  | rolAcc
  | rolZp (op : Byte)
  | rolZpx (op : Byte)
  | rolAbs (op : Addr)
  | rolAbsx (op : Addr)
  -- ROR, rule R194
  | rorAcc
  | rorZp (op : Byte)
  | rorZpx (op : Byte)
  | rorAbs (op : Addr)
  | rorAbsx (op : Addr)
  -- PHA, rule R201
  | pha
  -- PHP, rule R202
  | php
  -- PLA, rule R203
  | pla
  -- PLP, rule R204
  | plp
  -- CLC, rule R205
  | clc
  -- SEC, rule R206
  | sec
  -- CLI, rule R207
  | cli
  -- SEI, rule R208
  | sei
  -- CLD, rule R209
  | cld
  -- SED, rule R210
  | sed
  -- CLV, rule R211
  | clv
  -- JMP, rule R221
  | jmpAbs (op : Addr)
  | jmpInd (op : Addr)
  -- JSR, rule R222
  | jsr (op : Addr)
  -- RTS, rule R223
  | rts
  -- BCC, rule R225
  | bcc (op : Byte)
  -- BCS, rule R226
  | bcs (op : Byte)
  -- BEQ, rule R227
  | beq (op : Byte)
  -- BNE, rule R228
  | bne (op : Byte)
  -- BMI, rule R229
  | bmi (op : Byte)
  -- BPL, rule R230
  | bpl (op : Byte)
  -- BVC, rule R231
  | bvc (op : Byte)
  -- BVS, rule R232
  | bvs (op : Byte)
  -- NOP, rule R240
  | nop
  -- BRK, rule R241
  | brk
  -- RTI, rule R242
  | rti
deriving DecidableEq, Repr

end Sys2Proof
end

