-- ==== Sys2Proof/Decode.lean ====
section
/-! DEFINITION. The instruction table and the decoder (30_encoding.md), and after it the encoder.
The encode table is rule R92 as it is printed, the decode table is the grid of rule R96 as it is printed: two
tables of the spec, written down apart, so that their agreement (rule R93) is a theorem and not a definition. -/

namespace Sys2Proof

/-! ### Slices, concatenation and extension (00_scope.md rule R7) -/

/-- `lo8(w) = w[7:0]`. -/
def lo8 (w : Addr) : Byte := w.extractLsb' 0 8

/-- `hi8(w) = w[15:8]`. -/
def hi8 (w : Addr) : Byte := w.extractLsb' 8 8

/-- `{h, l} = h * 256 + l`. -/
def word (h l : Byte) : Addr := h ++ l

/-- A byte read as an unsigned integer, in 16 bits (`zext` of rule R7). -/
def zext (b : Byte) : Addr := b.setWidth 16

/-- `sext_8` of rule R7, in 16 bits: the signed reading of a byte, modulo 65536. -/
def sext8 (b : Byte) : Addr := b.signExtend 16

/-! ### Widths and operands (rules R91 and R95) -/

/-- The operand width of a mode, in bytes (rule R91). -/
def Mode.width : Mode → Nat
  | .imp | .acc => 0
  | .imm | .zp | .zpx | .zpy | .indx | .indy | .rel => 1
  | .abs | .absx | .absy | .ind => 2

/-- The operand that operand value `op` stands for in a mode (rule R95); a one-byte operand is the low byte. -/
def Operand.ofMode (mode : Mode) (op : Addr) : Operand :=
  match mode with
  | .imp => .imp
  | .acc => .acc
  | .imm => .imm (lo8 op)
  | .zp => .mem (.zp (lo8 op))
  | .zpx => .mem (.zpx (lo8 op))
  | .zpy => .mem (.zpy (lo8 op))
  | .abs => .mem (.abs op)
  | .absx => .mem (.absx op)
  | .absy => .mem (.absy op)
  | .ind => .ind op
  | .indx => .mem (.indx (lo8 op))
  | .indy => .mem (.indy (lo8 op))
  | .rel => .rel (lo8 op)

/-- The mode and the operand value of a memory operand. -/
def MemOperand.parts : MemOperand → Mode × Addr
  | .zp op => (.zp, zext op)
  | .zpx op => (.zpx, zext op)
  | .zpy op => (.zpy, zext op)
  | .abs op => (.abs, op)
  | .absx op => (.absx, op)
  | .absy op => (.absy, op)
  | .indx op => (.indx, zext op)
  | .indy op => (.indy, zext op)

/-- The mode and the operand value of an operand. -/
def Operand.parts : Operand → Mode × Addr
  | .imp => (.imp, 0)
  | .acc => (.acc, 0)
  | .imm op => (.imm, zext op)
  | .mem m => m.parts
  | .ind op => (.ind, op)
  | .rel op => (.rel, zext op)

/-- The addressing mode an operand carries. -/
def Operand.mode (o : Operand) : Mode := o.parts.1

/-- The operand as a source of an 8-bit value, where it is one (rule R111). -/
def Operand.source? : Operand → Option Source
  | .imm op => some (.imm op)
  | .acc => some .acc
  | .mem m => some (.mem m)
  | _ => none

/-- The operand as the place a shift modifies, where it is one (rule R190). -/
def Operand.place? : Operand → Option Place
  | .acc => some .acc
  | .mem m => some (.mem m)
  | _ => none

/-- The operand as a memory operand, where it is one. -/
def Operand.mem? : Operand → Option MemOperand
  | .mem m => some m
  | _ => none

/-! ### An instruction as mnemonic, mode and operand value, and back -/

/-- The row of the table an instruction belongs to, with its operand value (0 where it has no operand). -/
def Instr.parts : Instr → Mnemonic × Mode × Addr
  | .ldaImm op => (.lda, .imm, zext op)
  | .ldaZp op => (.lda, .zp, zext op)
  | .ldaZpx op => (.lda, .zpx, zext op)
  | .ldaAbs op => (.lda, .abs, op)
  | .ldaAbsx op => (.lda, .absx, op)
  | .ldaAbsy op => (.lda, .absy, op)
  | .ldaIndx op => (.lda, .indx, zext op)
  | .ldaIndy op => (.lda, .indy, zext op)
  | .ldxImm op => (.ldx, .imm, zext op)
  | .ldxZp op => (.ldx, .zp, zext op)
  | .ldxZpy op => (.ldx, .zpy, zext op)
  | .ldxAbs op => (.ldx, .abs, op)
  | .ldxAbsy op => (.ldx, .absy, op)
  | .ldyImm op => (.ldy, .imm, zext op)
  | .ldyZp op => (.ldy, .zp, zext op)
  | .ldyZpx op => (.ldy, .zpx, zext op)
  | .ldyAbs op => (.ldy, .abs, op)
  | .ldyAbsx op => (.ldy, .absx, op)
  | .staZp op => (.sta, .zp, zext op)
  | .staZpx op => (.sta, .zpx, zext op)
  | .staAbs op => (.sta, .abs, op)
  | .staAbsx op => (.sta, .absx, op)
  | .staAbsy op => (.sta, .absy, op)
  | .staIndx op => (.sta, .indx, zext op)
  | .staIndy op => (.sta, .indy, zext op)
  | .stxZp op => (.stx, .zp, zext op)
  | .stxZpy op => (.stx, .zpy, zext op)
  | .stxAbs op => (.stx, .abs, op)
  | .styZp op => (.sty, .zp, zext op)
  | .styZpx op => (.sty, .zpx, zext op)
  | .styAbs op => (.sty, .abs, op)
  | .tax => (.tax, .imp, 0)
  | .tay => (.tay, .imp, 0)
  | .txa => (.txa, .imp, 0)
  | .tya => (.tya, .imp, 0)
  | .tsx => (.tsx, .imp, 0)
  | .txs => (.txs, .imp, 0)
  | .adcImm op => (.adc, .imm, zext op)
  | .adcZp op => (.adc, .zp, zext op)
  | .adcZpx op => (.adc, .zpx, zext op)
  | .adcAbs op => (.adc, .abs, op)
  | .adcAbsx op => (.adc, .absx, op)
  | .adcAbsy op => (.adc, .absy, op)
  | .adcIndx op => (.adc, .indx, zext op)
  | .adcIndy op => (.adc, .indy, zext op)
  | .sbcImm op => (.sbc, .imm, zext op)
  | .sbcZp op => (.sbc, .zp, zext op)
  | .sbcZpx op => (.sbc, .zpx, zext op)
  | .sbcAbs op => (.sbc, .abs, op)
  | .sbcAbsx op => (.sbc, .absx, op)
  | .sbcAbsy op => (.sbc, .absy, op)
  | .sbcIndx op => (.sbc, .indx, zext op)
  | .sbcIndy op => (.sbc, .indy, zext op)
  | .andImm op => (.and, .imm, zext op)
  | .andZp op => (.and, .zp, zext op)
  | .andZpx op => (.and, .zpx, zext op)
  | .andAbs op => (.and, .abs, op)
  | .andAbsx op => (.and, .absx, op)
  | .andAbsy op => (.and, .absy, op)
  | .andIndx op => (.and, .indx, zext op)
  | .andIndy op => (.and, .indy, zext op)
  | .oraImm op => (.ora, .imm, zext op)
  | .oraZp op => (.ora, .zp, zext op)
  | .oraZpx op => (.ora, .zpx, zext op)
  | .oraAbs op => (.ora, .abs, op)
  | .oraAbsx op => (.ora, .absx, op)
  | .oraAbsy op => (.ora, .absy, op)
  | .oraIndx op => (.ora, .indx, zext op)
  | .oraIndy op => (.ora, .indy, zext op)
  | .eorImm op => (.eor, .imm, zext op)
  | .eorZp op => (.eor, .zp, zext op)
  | .eorZpx op => (.eor, .zpx, zext op)
  | .eorAbs op => (.eor, .abs, op)
  | .eorAbsx op => (.eor, .absx, op)
  | .eorAbsy op => (.eor, .absy, op)
  | .eorIndx op => (.eor, .indx, zext op)
  | .eorIndy op => (.eor, .indy, zext op)
  | .bitZp op => (.bit, .zp, zext op)
  | .bitAbs op => (.bit, .abs, op)
  | .cmpImm op => (.cmp, .imm, zext op)
  | .cmpZp op => (.cmp, .zp, zext op)
  | .cmpZpx op => (.cmp, .zpx, zext op)
  | .cmpAbs op => (.cmp, .abs, op)
  | .cmpAbsx op => (.cmp, .absx, op)
  | .cmpAbsy op => (.cmp, .absy, op)
  | .cmpIndx op => (.cmp, .indx, zext op)
  | .cmpIndy op => (.cmp, .indy, zext op)
  | .cpxImm op => (.cpx, .imm, zext op)
  | .cpxZp op => (.cpx, .zp, zext op)
  | .cpxAbs op => (.cpx, .abs, op)
  | .cpyImm op => (.cpy, .imm, zext op)
  | .cpyZp op => (.cpy, .zp, zext op)
  | .cpyAbs op => (.cpy, .abs, op)
  | .incZp op => (.inc, .zp, zext op)
  | .incZpx op => (.inc, .zpx, zext op)
  | .incAbs op => (.inc, .abs, op)
  | .incAbsx op => (.inc, .absx, op)
  | .decZp op => (.dec, .zp, zext op)
  | .decZpx op => (.dec, .zpx, zext op)
  | .decAbs op => (.dec, .abs, op)
  | .decAbsx op => (.dec, .absx, op)
  | .inx => (.inx, .imp, 0)
  | .iny => (.iny, .imp, 0)
  | .dex => (.dex, .imp, 0)
  | .dey => (.dey, .imp, 0)
  | .aslAcc => (.asl, .acc, 0)
  | .aslZp op => (.asl, .zp, zext op)
  | .aslZpx op => (.asl, .zpx, zext op)
  | .aslAbs op => (.asl, .abs, op)
  | .aslAbsx op => (.asl, .absx, op)
  | .lsrAcc => (.lsr, .acc, 0)
  | .lsrZp op => (.lsr, .zp, zext op)
  | .lsrZpx op => (.lsr, .zpx, zext op)
  | .lsrAbs op => (.lsr, .abs, op)
  | .lsrAbsx op => (.lsr, .absx, op)
  | .rolAcc => (.rol, .acc, 0)
  | .rolZp op => (.rol, .zp, zext op)
  | .rolZpx op => (.rol, .zpx, zext op)
  | .rolAbs op => (.rol, .abs, op)
  | .rolAbsx op => (.rol, .absx, op)
  | .rorAcc => (.ror, .acc, 0)
  | .rorZp op => (.ror, .zp, zext op)
  | .rorZpx op => (.ror, .zpx, zext op)
  | .rorAbs op => (.ror, .abs, op)
  | .rorAbsx op => (.ror, .absx, op)
  | .pha => (.pha, .imp, 0)
  | .php => (.php, .imp, 0)
  | .pla => (.pla, .imp, 0)
  | .plp => (.plp, .imp, 0)
  | .clc => (.clc, .imp, 0)
  | .sec => (.sec, .imp, 0)
  | .cli => (.cli, .imp, 0)
  | .sei => (.sei, .imp, 0)
  | .cld => (.cld, .imp, 0)
  | .sed => (.sed, .imp, 0)
  | .clv => (.clv, .imp, 0)
  | .jmpAbs op => (.jmp, .abs, op)
  | .jmpInd op => (.jmp, .ind, op)
  | .jsr op => (.jsr, .abs, op)
  | .rts => (.rts, .imp, 0)
  | .bcc op => (.bcc, .rel, zext op)
  | .bcs op => (.bcs, .rel, zext op)
  | .beq op => (.beq, .rel, zext op)
  | .bne op => (.bne, .rel, zext op)
  | .bmi op => (.bmi, .rel, zext op)
  | .bpl op => (.bpl, .rel, zext op)
  | .bvc op => (.bvc, .rel, zext op)
  | .bvs op => (.bvs, .rel, zext op)
  | .nop => (.nop, .imp, 0)
  | .brk => (.brk, .imp, 0)
  | .rti => (.rti, .imp, 0)

/-- The mnemonic of an instruction. -/
def Instr.mnemonic (i : Instr) : Mnemonic := i.parts.1

/-- The addressing mode of an instruction. -/
def Instr.mode (i : Instr) : Mode := i.parts.2.1

/-- The operand value of an instruction (rule R95). -/
def Instr.opValue (i : Instr) : Addr := i.parts.2.2

/-- The operand of an instruction. -/
def Instr.operand (i : Instr) : Operand := Operand.ofMode i.mode i.opValue

/-- The length in bytes (rule R90): one encoding byte and the operand bytes of the mode. -/
def Instr.length (i : Instr) : Nat := 1 + i.mode.width

/-- The instruction of a (mnemonic, mode) pair with an operand value; none where rule R92 lists no such pair. -/
def Instr.ofParts (mn : Mnemonic) (mode : Mode) (op : Addr) : Option Instr :=
  match mn with
  | .lda =>
    match mode with
    | .imm => some (.ldaImm (lo8 op))
    | .zp => some (.ldaZp (lo8 op))
    | .zpx => some (.ldaZpx (lo8 op))
    | .abs => some (.ldaAbs op)
    | .absx => some (.ldaAbsx op)
    | .absy => some (.ldaAbsy op)
    | .indx => some (.ldaIndx (lo8 op))
    | .indy => some (.ldaIndy (lo8 op))
    | _ => none
  | .ldx =>
    match mode with
    | .imm => some (.ldxImm (lo8 op))
    | .zp => some (.ldxZp (lo8 op))
    | .zpy => some (.ldxZpy (lo8 op))
    | .abs => some (.ldxAbs op)
    | .absy => some (.ldxAbsy op)
    | _ => none
  | .ldy =>
    match mode with
    | .imm => some (.ldyImm (lo8 op))
    | .zp => some (.ldyZp (lo8 op))
    | .zpx => some (.ldyZpx (lo8 op))
    | .abs => some (.ldyAbs op)
    | .absx => some (.ldyAbsx op)
    | _ => none
  | .sta =>
    match mode with
    | .zp => some (.staZp (lo8 op))
    | .zpx => some (.staZpx (lo8 op))
    | .abs => some (.staAbs op)
    | .absx => some (.staAbsx op)
    | .absy => some (.staAbsy op)
    | .indx => some (.staIndx (lo8 op))
    | .indy => some (.staIndy (lo8 op))
    | _ => none
  | .stx =>
    match mode with
    | .zp => some (.stxZp (lo8 op))
    | .zpy => some (.stxZpy (lo8 op))
    | .abs => some (.stxAbs op)
    | _ => none
  | .sty =>
    match mode with
    | .zp => some (.styZp (lo8 op))
    | .zpx => some (.styZpx (lo8 op))
    | .abs => some (.styAbs op)
    | _ => none
  | .tax =>
    match mode with
    | .imp => some .tax
    | _ => none
  | .tay =>
    match mode with
    | .imp => some .tay
    | _ => none
  | .txa =>
    match mode with
    | .imp => some .txa
    | _ => none
  | .tya =>
    match mode with
    | .imp => some .tya
    | _ => none
  | .tsx =>
    match mode with
    | .imp => some .tsx
    | _ => none
  | .txs =>
    match mode with
    | .imp => some .txs
    | _ => none
  | .adc =>
    match mode with
    | .imm => some (.adcImm (lo8 op))
    | .zp => some (.adcZp (lo8 op))
    | .zpx => some (.adcZpx (lo8 op))
    | .abs => some (.adcAbs op)
    | .absx => some (.adcAbsx op)
    | .absy => some (.adcAbsy op)
    | .indx => some (.adcIndx (lo8 op))
    | .indy => some (.adcIndy (lo8 op))
    | _ => none
  | .sbc =>
    match mode with
    | .imm => some (.sbcImm (lo8 op))
    | .zp => some (.sbcZp (lo8 op))
    | .zpx => some (.sbcZpx (lo8 op))
    | .abs => some (.sbcAbs op)
    | .absx => some (.sbcAbsx op)
    | .absy => some (.sbcAbsy op)
    | .indx => some (.sbcIndx (lo8 op))
    | .indy => some (.sbcIndy (lo8 op))
    | _ => none
  | .and =>
    match mode with
    | .imm => some (.andImm (lo8 op))
    | .zp => some (.andZp (lo8 op))
    | .zpx => some (.andZpx (lo8 op))
    | .abs => some (.andAbs op)
    | .absx => some (.andAbsx op)
    | .absy => some (.andAbsy op)
    | .indx => some (.andIndx (lo8 op))
    | .indy => some (.andIndy (lo8 op))
    | _ => none
  | .ora =>
    match mode with
    | .imm => some (.oraImm (lo8 op))
    | .zp => some (.oraZp (lo8 op))
    | .zpx => some (.oraZpx (lo8 op))
    | .abs => some (.oraAbs op)
    | .absx => some (.oraAbsx op)
    | .absy => some (.oraAbsy op)
    | .indx => some (.oraIndx (lo8 op))
    | .indy => some (.oraIndy (lo8 op))
    | _ => none
  | .eor =>
    match mode with
    | .imm => some (.eorImm (lo8 op))
    | .zp => some (.eorZp (lo8 op))
    | .zpx => some (.eorZpx (lo8 op))
    | .abs => some (.eorAbs op)
    | .absx => some (.eorAbsx op)
    | .absy => some (.eorAbsy op)
    | .indx => some (.eorIndx (lo8 op))
    | .indy => some (.eorIndy (lo8 op))
    | _ => none
  | .bit =>
    match mode with
    | .zp => some (.bitZp (lo8 op))
    | .abs => some (.bitAbs op)
    | _ => none
  | .cmp =>
    match mode with
    | .imm => some (.cmpImm (lo8 op))
    | .zp => some (.cmpZp (lo8 op))
    | .zpx => some (.cmpZpx (lo8 op))
    | .abs => some (.cmpAbs op)
    | .absx => some (.cmpAbsx op)
    | .absy => some (.cmpAbsy op)
    | .indx => some (.cmpIndx (lo8 op))
    | .indy => some (.cmpIndy (lo8 op))
    | _ => none
  | .cpx =>
    match mode with
    | .imm => some (.cpxImm (lo8 op))
    | .zp => some (.cpxZp (lo8 op))
    | .abs => some (.cpxAbs op)
    | _ => none
  | .cpy =>
    match mode with
    | .imm => some (.cpyImm (lo8 op))
    | .zp => some (.cpyZp (lo8 op))
    | .abs => some (.cpyAbs op)
    | _ => none
  | .inc =>
    match mode with
    | .zp => some (.incZp (lo8 op))
    | .zpx => some (.incZpx (lo8 op))
    | .abs => some (.incAbs op)
    | .absx => some (.incAbsx op)
    | _ => none
  | .dec =>
    match mode with
    | .zp => some (.decZp (lo8 op))
    | .zpx => some (.decZpx (lo8 op))
    | .abs => some (.decAbs op)
    | .absx => some (.decAbsx op)
    | _ => none
  | .inx =>
    match mode with
    | .imp => some .inx
    | _ => none
  | .iny =>
    match mode with
    | .imp => some .iny
    | _ => none
  | .dex =>
    match mode with
    | .imp => some .dex
    | _ => none
  | .dey =>
    match mode with
    | .imp => some .dey
    | _ => none
  | .asl =>
    match mode with
    | .acc => some .aslAcc
    | .zp => some (.aslZp (lo8 op))
    | .zpx => some (.aslZpx (lo8 op))
    | .abs => some (.aslAbs op)
    | .absx => some (.aslAbsx op)
    | _ => none
  | .lsr =>
    match mode with
    | .acc => some .lsrAcc
    | .zp => some (.lsrZp (lo8 op))
    | .zpx => some (.lsrZpx (lo8 op))
    | .abs => some (.lsrAbs op)
    | .absx => some (.lsrAbsx op)
    | _ => none
  | .rol =>
    match mode with
    | .acc => some .rolAcc
    | .zp => some (.rolZp (lo8 op))
    | .zpx => some (.rolZpx (lo8 op))
    | .abs => some (.rolAbs op)
    | .absx => some (.rolAbsx op)
    | _ => none
  | .ror =>
    match mode with
    | .acc => some .rorAcc
    | .zp => some (.rorZp (lo8 op))
    | .zpx => some (.rorZpx (lo8 op))
    | .abs => some (.rorAbs op)
    | .absx => some (.rorAbsx op)
    | _ => none
  | .pha =>
    match mode with
    | .imp => some .pha
    | _ => none
  | .php =>
    match mode with
    | .imp => some .php
    | _ => none
  | .pla =>
    match mode with
    | .imp => some .pla
    | _ => none
  | .plp =>
    match mode with
    | .imp => some .plp
    | _ => none
  | .clc =>
    match mode with
    | .imp => some .clc
    | _ => none
  | .sec =>
    match mode with
    | .imp => some .sec
    | _ => none
  | .cli =>
    match mode with
    | .imp => some .cli
    | _ => none
  | .sei =>
    match mode with
    | .imp => some .sei
    | _ => none
  | .cld =>
    match mode with
    | .imp => some .cld
    | _ => none
  | .sed =>
    match mode with
    | .imp => some .sed
    | _ => none
  | .clv =>
    match mode with
    | .imp => some .clv
    | _ => none
  | .jmp =>
    match mode with
    | .abs => some (.jmpAbs op)
    | .ind => some (.jmpInd op)
    | _ => none
  | .jsr =>
    match mode with
    | .abs => some (.jsr op)
    | _ => none
  | .rts =>
    match mode with
    | .imp => some .rts
    | _ => none
  | .bcc =>
    match mode with
    | .rel => some (.bcc (lo8 op))
    | _ => none
  | .bcs =>
    match mode with
    | .rel => some (.bcs (lo8 op))
    | _ => none
  | .beq =>
    match mode with
    | .rel => some (.beq (lo8 op))
    | _ => none
  | .bne =>
    match mode with
    | .rel => some (.bne (lo8 op))
    | _ => none
  | .bmi =>
    match mode with
    | .rel => some (.bmi (lo8 op))
    | _ => none
  | .bpl =>
    match mode with
    | .rel => some (.bpl (lo8 op))
    | _ => none
  | .bvc =>
    match mode with
    | .rel => some (.bvc (lo8 op))
    | _ => none
  | .bvs =>
    match mode with
    | .rel => some (.bvs (lo8 op))
    | _ => none
  | .nop =>
    match mode with
    | .imp => some .nop
    | _ => none
  | .brk =>
    match mode with
    | .imp => some .brk
    | _ => none
  | .rti =>
    match mode with
    | .imp => some .rti
    | _ => none

/-- The instruction of a mnemonic with a concrete operand, where the mnemonic has that mode. -/
def Instr.ofOperand (mn : Mnemonic) (o : Operand) : Option Instr := Instr.ofParts mn o.parts.1 o.parts.2

/-! ### The decode table: the grid of rule R96 -/

/-- One cell of the grid: a (mnemonic, mode) pair, or `none` where the grid prints `-`. -/
abbrev GridCell := Option (Mnemonic × Mode)

/-- Row 0x of the grid of rule R96. -/
def gridRow0 : List GridCell :=
  [some (.brk, .imp), some (.ora, .indx), none, none,
   none, some (.ora, .zp), some (.asl, .zp), none,
   some (.php, .imp), some (.ora, .imm), some (.asl, .acc), none,
   none, some (.ora, .abs), some (.asl, .abs), none]

/-- Row 1x of the grid of rule R96. -/
def gridRow1 : List GridCell :=
  [some (.bpl, .rel), some (.ora, .indy), none, none,
   none, some (.ora, .zpx), some (.asl, .zpx), none,
   some (.clc, .imp), some (.ora, .absy), none, none,
   none, some (.ora, .absx), some (.asl, .absx), none]

/-- Row 2x of the grid of rule R96. -/
def gridRow2 : List GridCell :=
  [some (.jsr, .abs), some (.and, .indx), none, none,
   some (.bit, .zp), some (.and, .zp), some (.rol, .zp), none,
   some (.plp, .imp), some (.and, .imm), some (.rol, .acc), none,
   some (.bit, .abs), some (.and, .abs), some (.rol, .abs), none]

/-- Row 3x of the grid of rule R96. -/
def gridRow3 : List GridCell :=
  [some (.bmi, .rel), some (.and, .indy), none, none,
   none, some (.and, .zpx), some (.rol, .zpx), none,
   some (.sec, .imp), some (.and, .absy), none, none,
   none, some (.and, .absx), some (.rol, .absx), none]

/-- Row 4x of the grid of rule R96. -/
def gridRow4 : List GridCell :=
  [some (.rti, .imp), some (.eor, .indx), none, none,
   none, some (.eor, .zp), some (.lsr, .zp), none,
   some (.pha, .imp), some (.eor, .imm), some (.lsr, .acc), none,
   some (.jmp, .abs), some (.eor, .abs), some (.lsr, .abs), none]

/-- Row 5x of the grid of rule R96. -/
def gridRow5 : List GridCell :=
  [some (.bvc, .rel), some (.eor, .indy), none, none,
   none, some (.eor, .zpx), some (.lsr, .zpx), none,
   some (.cli, .imp), some (.eor, .absy), none, none,
   none, some (.eor, .absx), some (.lsr, .absx), none]

/-- Row 6x of the grid of rule R96. -/
def gridRow6 : List GridCell :=
  [some (.rts, .imp), some (.adc, .indx), none, none,
   none, some (.adc, .zp), some (.ror, .zp), none,
   some (.pla, .imp), some (.adc, .imm), some (.ror, .acc), none,
   some (.jmp, .ind), some (.adc, .abs), some (.ror, .abs), none]

/-- Row 7x of the grid of rule R96. -/
def gridRow7 : List GridCell :=
  [some (.bvs, .rel), some (.adc, .indy), none, none,
   none, some (.adc, .zpx), some (.ror, .zpx), none,
   some (.sei, .imp), some (.adc, .absy), none, none,
   none, some (.adc, .absx), some (.ror, .absx), none]

/-- Row 8x of the grid of rule R96. -/
def gridRow8 : List GridCell :=
  [none, some (.sta, .indx), none, none,
   some (.sty, .zp), some (.sta, .zp), some (.stx, .zp), none,
   some (.dey, .imp), none, some (.txa, .imp), none,
   some (.sty, .abs), some (.sta, .abs), some (.stx, .abs), none]

/-- Row 9x of the grid of rule R96. -/
def gridRow9 : List GridCell :=
  [some (.bcc, .rel), some (.sta, .indy), none, none,
   some (.sty, .zpx), some (.sta, .zpx), some (.stx, .zpy), none,
   some (.tya, .imp), some (.sta, .absy), some (.txs, .imp), none,
   none, some (.sta, .absx), none, none]

/-- Row Ax of the grid of rule R96. -/
def gridRowA : List GridCell :=
  [some (.ldy, .imm), some (.lda, .indx), some (.ldx, .imm), none,
   some (.ldy, .zp), some (.lda, .zp), some (.ldx, .zp), none,
   some (.tay, .imp), some (.lda, .imm), some (.tax, .imp), none,
   some (.ldy, .abs), some (.lda, .abs), some (.ldx, .abs), none]

/-- Row Bx of the grid of rule R96. -/
def gridRowB : List GridCell :=
  [some (.bcs, .rel), some (.lda, .indy), none, none,
   some (.ldy, .zpx), some (.lda, .zpx), some (.ldx, .zpy), none,
   some (.clv, .imp), some (.lda, .absy), some (.tsx, .imp), none,
   some (.ldy, .absx), some (.lda, .absx), some (.ldx, .absy), none]

/-- Row Cx of the grid of rule R96. -/
def gridRowC : List GridCell :=
  [some (.cpy, .imm), some (.cmp, .indx), none, none,
   some (.cpy, .zp), some (.cmp, .zp), some (.dec, .zp), none,
   some (.iny, .imp), some (.cmp, .imm), some (.dex, .imp), none,
   some (.cpy, .abs), some (.cmp, .abs), some (.dec, .abs), none]

/-- Row Dx of the grid of rule R96. -/
def gridRowD : List GridCell :=
  [some (.bne, .rel), some (.cmp, .indy), none, none,
   none, some (.cmp, .zpx), some (.dec, .zpx), none,
   some (.cld, .imp), some (.cmp, .absy), none, none,
   none, some (.cmp, .absx), some (.dec, .absx), none]

/-- Row Ex of the grid of rule R96. -/
def gridRowE : List GridCell :=
  [some (.cpx, .imm), some (.sbc, .indx), none, none,
   some (.cpx, .zp), some (.sbc, .zp), some (.inc, .zp), none,
   some (.inx, .imp), some (.sbc, .imm), some (.nop, .imp), none,
   some (.cpx, .abs), some (.sbc, .abs), some (.inc, .abs), none]

/-- Row Fx of the grid of rule R96. -/
def gridRowF : List GridCell :=
  [some (.beq, .rel), some (.sbc, .indy), none, none,
   none, some (.sbc, .zpx), some (.inc, .zpx), none,
   some (.sed, .imp), some (.sbc, .absy), none, none,
   none, some (.sbc, .absx), some (.inc, .absx), none]

/-- The grid of rule R96, row by high nibble, column by low nibble. -/
def grid : List (List GridCell) :=
  [gridRow0, gridRow1, gridRow2, gridRow3, gridRow4, gridRow5, gridRow6, gridRow7] ++
  [gridRow8, gridRow9, gridRowA, gridRowB, gridRowC, gridRowD, gridRowE, gridRowF]

/-- `decode(byte)` of rule R93: the grid's cell. -/
def decodeByte (b : Byte) : Option (Mnemonic × Mode) :=
  (grid.getD (b.toNat / 16) []).getD (b.toNat % 16) none

/-! ### The decoder (rules R90, R94, R95) -/

/-- Why bytes are no instruction. -/
inductive DecodeError where
  /-- There is no byte to read. -/
  | noBytes
  /-- The first byte is one of the 105 of rule R97. -/
  | unmappableOpcode (b : Byte)
  /-- The mode's operand bytes are not all there. -/
  | operandMissing (mn : Mnemonic) (mode : Mode)
  /-- The grid names a pair that has no constructor; no byte does (a lemma of Laws/Decode.lean). -/
  | noSuchForm (mn : Mnemonic) (mode : Mode)
deriving DecidableEq, Repr

/-- The operand value in the first `width` bytes, low byte first (rule R95), and the bytes after them. -/
def takeOperand : Nat → List Byte → Option (Addr × List Byte)
  | 0, bs => some (0, bs)
  | 1, b :: bs => some (zext b, bs)
  | 2, l :: h :: bs => some (word h l, bs)
  | _, _ => none

/-- Decode the instruction at the head of a list of bytes (rule R94): the encoding byte alone selects mnemonic,
mode and length. Answers the instruction and the bytes after it, or why there is none. -/
def decode : List Byte → Except DecodeError (Instr × List Byte)
  | [] => .error .noBytes
  | b :: rest =>
    match decodeByte b with
    | none => .error (.unmappableOpcode b)
    | some (mn, mode) =>
      match takeOperand mode.width rest with
      | none => .error (.operandMissing mn mode)
      | some (op, rest') =>
        match Instr.ofParts mn mode op with
        | some i => .ok (i, rest')
        | none => .error (.noSuchForm mn mode)

/-! ### The encode table: rule R92 -/

/-- The (mode, byte) pairs of a mnemonic, as the table of rule R92 prints them. -/
def encodings : Mnemonic → List (Mode × Byte)
  | .adc => [(.imm, 0x69), (.zp, 0x65), (.zpx, 0x75), (.abs, 0x6D),
      (.absx, 0x7D), (.absy, 0x79), (.indx, 0x61), (.indy, 0x71)]
  | .and => [(.imm, 0x29), (.zp, 0x25), (.zpx, 0x35), (.abs, 0x2D),
      (.absx, 0x3D), (.absy, 0x39), (.indx, 0x21), (.indy, 0x31)]
  | .asl => [(.acc, 0x0A), (.zp, 0x06), (.zpx, 0x16), (.abs, 0x0E),
      (.absx, 0x1E)]
  | .bcc => [(.rel, 0x90)]
  | .bcs => [(.rel, 0xB0)]
  | .beq => [(.rel, 0xF0)]
  | .bit => [(.zp, 0x24), (.abs, 0x2C)]
  | .bmi => [(.rel, 0x30)]
  | .bne => [(.rel, 0xD0)]
  | .bpl => [(.rel, 0x10)]
  | .brk => [(.imp, 0x00)]
  | .bvc => [(.rel, 0x50)]
  | .bvs => [(.rel, 0x70)]
  | .clc => [(.imp, 0x18)]
  | .cld => [(.imp, 0xD8)]
  | .cli => [(.imp, 0x58)]
  | .clv => [(.imp, 0xB8)]
  | .cmp => [(.imm, 0xC9), (.zp, 0xC5), (.zpx, 0xD5), (.abs, 0xCD),
      (.absx, 0xDD), (.absy, 0xD9), (.indx, 0xC1), (.indy, 0xD1)]
  | .cpx => [(.imm, 0xE0), (.zp, 0xE4), (.abs, 0xEC)]
  | .cpy => [(.imm, 0xC0), (.zp, 0xC4), (.abs, 0xCC)]
  | .dec => [(.zp, 0xC6), (.zpx, 0xD6), (.abs, 0xCE), (.absx, 0xDE)]
  | .dex => [(.imp, 0xCA)]
  | .dey => [(.imp, 0x88)]
  | .eor => [(.imm, 0x49), (.zp, 0x45), (.zpx, 0x55), (.abs, 0x4D),
      (.absx, 0x5D), (.absy, 0x59), (.indx, 0x41), (.indy, 0x51)]
  | .inc => [(.zp, 0xE6), (.zpx, 0xF6), (.abs, 0xEE), (.absx, 0xFE)]
  | .inx => [(.imp, 0xE8)]
  | .iny => [(.imp, 0xC8)]
  | .jmp => [(.abs, 0x4C), (.ind, 0x6C)]
  | .jsr => [(.abs, 0x20)]
  | .lda => [(.imm, 0xA9), (.zp, 0xA5), (.zpx, 0xB5), (.abs, 0xAD),
      (.absx, 0xBD), (.absy, 0xB9), (.indx, 0xA1), (.indy, 0xB1)]
  | .ldx => [(.imm, 0xA2), (.zp, 0xA6), (.zpy, 0xB6), (.abs, 0xAE),
      (.absy, 0xBE)]
  | .ldy => [(.imm, 0xA0), (.zp, 0xA4), (.zpx, 0xB4), (.abs, 0xAC),
      (.absx, 0xBC)]
  | .lsr => [(.acc, 0x4A), (.zp, 0x46), (.zpx, 0x56), (.abs, 0x4E),
      (.absx, 0x5E)]
  | .nop => [(.imp, 0xEA)]
  | .ora => [(.imm, 0x09), (.zp, 0x05), (.zpx, 0x15), (.abs, 0x0D),
      (.absx, 0x1D), (.absy, 0x19), (.indx, 0x01), (.indy, 0x11)]
  | .pha => [(.imp, 0x48)]
  | .php => [(.imp, 0x08)]
  | .pla => [(.imp, 0x68)]
  | .plp => [(.imp, 0x28)]
  | .rol => [(.acc, 0x2A), (.zp, 0x26), (.zpx, 0x36), (.abs, 0x2E),
      (.absx, 0x3E)]
  | .ror => [(.acc, 0x6A), (.zp, 0x66), (.zpx, 0x76), (.abs, 0x6E),
      (.absx, 0x7E)]
  | .rti => [(.imp, 0x40)]
  | .rts => [(.imp, 0x60)]
  | .sbc => [(.imm, 0xE9), (.zp, 0xE5), (.zpx, 0xF5), (.abs, 0xED),
      (.absx, 0xFD), (.absy, 0xF9), (.indx, 0xE1), (.indy, 0xF1)]
  | .sec => [(.imp, 0x38)]
  | .sed => [(.imp, 0xF8)]
  | .sei => [(.imp, 0x78)]
  | .sta => [(.zp, 0x85), (.zpx, 0x95), (.abs, 0x8D), (.absx, 0x9D),
      (.absy, 0x99), (.indx, 0x81), (.indy, 0x91)]
  | .stx => [(.zp, 0x86), (.zpy, 0x96), (.abs, 0x8E)]
  | .sty => [(.zp, 0x84), (.zpx, 0x94), (.abs, 0x8C)]
  | .tax => [(.imp, 0xAA)]
  | .tay => [(.imp, 0xA8)]
  | .tsx => [(.imp, 0xBA)]
  | .txa => [(.imp, 0x8A)]
  | .txs => [(.imp, 0x9A)]
  | .tya => [(.imp, 0x98)]

/-- `encode(mnemonic, mode)` of rule R93; `none` is the encoding error of rule R120. -/
def encodeByte (mn : Mnemonic) (mode : Mode) : Option Byte := (encodings mn).lookup mode

/-- `supports(mnemonic, mode)` of rule R93. -/
def supports (mn : Mnemonic) (mode : Mode) : Bool := (encodeByte mn mode).isSome

/-- The operand bytes of an operand value, low byte first (rules R90, R95). -/
def operandBytes (mode : Mode) (op : Addr) : List Byte :=
  match mode.width with
  | 0 => []
  | 1 => [lo8 op]
  | _ => [lo8 op, hi8 op]

/-- The bytes of an instruction (rule R90); the empty list would mean a pair the table does not have, and no
constructor of `Instr` is one (a lemma of Laws/Decode.lean). -/
def encode (i : Instr) : List Byte :=
  match encodeByte i.mnemonic i.mode with
  | some b => b :: operandBytes i.mode i.opValue
  | none => []

/-! ### The opcode table's numbering -/

/-- The byte `k` of a number whose bit 0 is bit 0 of the first byte. -/
def byteAt (w k : Nat) : Byte := BitVec.ofNat 8 (w / 2 ^ (8 * k))

/-- The longest instruction's bytes, of a number of `nbits` bits as spec/opcode_table.json numbers them: the first
byte is bits 7..0, the second bits 15..8, the third bits 23..16, and every bit from `nbits` on is 0. -/
def tableBytes (nbits w : Nat) : List Byte :=
  [byteAt (w % 2 ^ nbits) 0, byteAt (w % 2 ^ nbits) 1, byteAt (w % 2 ^ nbits) 2]

/-- The instruction the decoder reads from a word of the opcode table. -/
def decodeTableWord (nbits w : Nat) : Option Instr :=
  match decode (tableBytes nbits w) with
  | .ok (i, _) => some i
  | .error _ => none

end Sys2Proof
end

