-- ==== Sys2Proof/Config.lean ====
section
/-! DEFINITION. What is fixed for a machine or left open by the spec: the parameters of 00_scope.md rule R6, the plain
data that the host's code sees and answers with, and the free values, each an opaque constant that nothing in
Lean can evaluate. -/

namespace Sys2Proof

/-- The parameters of 00_scope.md rule R6. They are held in the machine's state and no step changes them, so that a
claim about every state holds for every value of them. The defaults are rule R6's column "value": the spec's
decisions, and for the two OPEN vectors its recommended defaults (log 1); READRANGE_INCLUSIVE is OPEN (log 2). -/
structure Config where
  /-- STACK_BASE: base address of the page the stack pointer indexes. -/
  stackBase : Addr := 0x0100
  /-- VEC_BRK: address of the two-byte software interrupt vector (OPEN in the spec). -/
  vecBrk : Addr := 0x0316
  /-- VEC_IRQ: address of the two-byte hardware/IRQ vector (OPEN in the spec). -/
  vecIrq : Addr := 0x0314
  /-- SP_RESET: the stack pointer after construction. -/
  spReset : Byte := 0xFF
  /-- RETURN_BIAS: JSR pushes the next instruction's address minus this, RTS adds it. -/
  returnBias : Addr := 1
  /-- READRANGE_INCLUSIVE: whether `readRange(from, to)` includes `to` (OPEN in the spec). -/
  readRangeInclusive : Bool := false
deriving DecidableEq, Repr

/-- The seven flags of 10_state.md rule R24. -/
structure Flags where
  c : Bool
  z : Bool
  i : Bool
  d : Bool
  b : Bool
  v : Bool
  n : Bool
deriving DecidableEq, Repr, Inhabited

/-- Memory as the bytes that differ from what an unwritten byte reads as: address and byte, addresses strictly
rising (the canonical form is `Memory.wf` of Machine/State.lean). -/
abbrev Memory := List Host.Cell

/-- What a host routine's hook sees of the machine (60_exceptions.md rule R281): registers, flags and memory. -/
structure MachineView where
  a : Byte
  x : Byte
  y : Byte
  sp : Byte
  pc : Addr
  flags : Flags
  mem : Memory
deriving DecidableEq, Repr, Inhabited

/-- What a hook leaves (rule R281): new registers and flags, and the bytes it pokes, in order. Every change of
memory is some list of pokes. It has no place for the trap table or for `opCount`, which a hook may not change. -/
structure HookEffect where
  a : Byte
  x : Byte
  y : Byte
  sp : Byte
  pc : Addr
  flags : Flags
  pokes : List (Addr × Byte)
deriving DecidableEq, Repr, Inhabited

/-- The registers and the status byte that a register-state-changed event carries (rule R290, log 13). -/
structure Snapshot where
  a : Byte
  x : Byte
  y : Byte
  sp : Byte
  pc : Addr
  p : Byte
deriving DecidableEq, Repr, Inhabited

/-- The events of 60_exceptions.md rule R290. The label list of jumped-to comes from the loaded Program, which
00_scope.md rule R4 leaves out. -/
inductive Event where
  | operationPerformed (address : Addr) (operation : Instr)
  | memoryChanged (address : Addr) (old new : Byte)
  | jumpedTo (address : Addr)
  | registerStateChanged (snapshot : Snapshot)
deriving DecidableEq, Repr

/-- The kind of an event, which a listener may filter by (rule R290). -/
inductive EventKind where
  | operationPerformed | memoryChanged | jumpedTo | registerStateChanged
deriving DecidableEq, Repr

/-- What made the program counter change otherwise than by an instruction's length (rule R290, log 9). -/
inductive JumpCause where
  | instruction (i : Instr)
  | interruptRequest
  | runStart
  | hostSetsPc
deriving DecidableEq, Repr

/-- FREE VALUE (log 5). What the execution hook `hook` does at the machine's `tick`-th invocation of a hook. -/
opaque Config.hookExecute (hook tick : Nat) (view : MachineView) : HookEffect

/-- FREE VALUE (log 7). What the install hook `hook` does at the machine's `tick`-th invocation of a hook. -/
opaque Config.hookOnLoad (hook tick : Nat) (view : MachineView) : HookEffect

/-- FREE VALUE (log 7). The events the registration of a routine with an install hook emits, besides those of the
hook's own pokes. -/
opaque Config.onLoadEvents (tick : Nat) (before after : MachineView) : List Event

/-- FREE VALUE (log 9). Whether a change of control flow emits a jumped-to event. -/
opaque Config.emitsJumpedTo (cause : JumpCause) (before after : MachineView) : Bool

/-- FREE VALUE (log 10). The events a trap visit emits before its hook runs. -/
opaque Config.trapEventsBefore (tick : Nat) (view : MachineView) : List Event

/-- FREE VALUE (log 10). The events a trap visit emits after its end-with instruction, besides those of the hook's
own pokes. -/
opaque Config.trapEventsAfter (tick : Nat) (before after : MachineView) : List Event

/-- FREE VALUE (log 11). Whether `loadRawImage` emits memory-changed events for the bytes it copies. -/
opaque Config.imageLoadEmits (view : MachineView) : Bool

/-- FREE VALUE (log 19). The placeholder byte of a host-routine marker at an address. -/
opaque Config.placeholderByte (address : Nat) : Byte

end Sys2Proof
end

