-- ==== Sys2Proof/Machine/State.lean ====
section
/-! DEFINITION. The machine's state (10_state.md), the reasons a step can stop, and the state after construction.
State is plain data and holds everything the spec gives the machine; INVENTORY.md lists it rule by rule. -/

namespace Sys2Proof

/-- What a byte that nothing has written reads as: 0x00 (10_state.md rule R36: from the source). -/
def Memory.unwritten : Byte := 0x00

/-- The canonical form from address `low` on: addresses at least `low`, strictly rising, below 65536, and no byte
equal to what an unlisted address reads as. -/
def Memory.wfFrom (low : Nat) : Memory → Bool
  | [] => true
  | (k, v) :: rest =>
    decide (low ≤ k) && decide (k < 65536) && decide (v ≠ Memory.unwritten) && Memory.wfFrom (k + 1) rest

/-- The canonical form of memory: equal memories are equal lists. -/
def Memory.wf (m : Memory) : Bool := Memory.wfFrom 0 m

namespace Machine

/-- The end-with pseudo-instruction of a host routine (60_exceptions.md rules R280 and R283). -/
inductive EndWith where
  | rts | rti
deriving DecidableEq, Repr

/-- A host routine as the host hands it to `register` (rule R280): an install hook or none, the execution hook, and an
end-with pseudo-instruction or none. Its byte-size reservation matters only to the encoder's layout, where the marker
element holds it (30_encoding.md rule R114). -/
structure HostRoutine where
  onLoad : Option Nat := none
  execute : Nat
  endWith : Option EndWith := none
deriving DecidableEq, Repr

/-- An entry of the registry: which hook, and what is performed when it has run (rule R280). -/
structure Trap where
  hook : Nat
  endWith : EndWith
deriving DecidableEq, Repr

/-- The host-routine registry of 10_state.md rule R34: a finite partial map, as entries at strictly rising
addresses. -/
abbrev TrapTable := List (Addr × Trap)

/-- Addresses strictly rising, from `low` on. -/
def TrapTable.wfFrom (low : Nat) : TrapTable → Bool
  | [] => true
  | (k, _) :: rest => decide (low ≤ k.toNat) && TrapTable.wfFrom (k.toNat + 1) rest

/-- The registry's canonical form: at most one entry an address, in rising order. -/
def TrapTable.wf (t : TrapTable) : Bool := TrapTable.wfFrom 0 t

/-- A listener (60_exceptions.md rule R290): for all events, or for one kind only. -/
structure Listener where
  name : Nat
  filter : Option EventKind
deriving DecidableEq, Repr

/-- One notification: which listener received which event. -/
structure Delivery where
  listener : Listener
  event : Event
deriving DecidableEq, Repr

end Machine
end Sys2Proof

namespace Sys2Proof.Machine

/-- The state of 10_state.md: registers, flags, memory, the state a program cannot read (rule R34), the
notifications delivered so far (rule R290), and the parameters of 00_scope.md rule R6. -/
structure State where
  /-- The accumulator (rule R20). -/
  a : Byte
  /-- The index register X (rule R20). -/
  x : Byte
  /-- The index register Y (rule R20). -/
  y : Byte
  /-- The stack pointer (rule R21). -/
  sp : Byte
  /-- The program counter (rule R22). -/
  pc : Addr
  /-- The seven flags (rule R24). -/
  flags : Flags
  /-- The 65,536 bytes of memory (rule R33). -/
  mem : Memory
  /-- The host-routine registry (rule R34). -/
  trapTable : TrapTable
  /-- The operation counter (rule R35). -/
  opCount : Nat
  /-- The listeners, in registration order (rules R34, R290). -/
  listeners : List Listener
  /-- The notifications delivered, oldest first (rule R290, log 8). -/
  delivered : List Delivery
  /-- THE MODEL'S OWN FIELD: how many hooks have been invoked, the counter the hooks' free values are applied to
  (log 5). -/
  hookTick : Nat
  /-- The machine's parameters (00_scope.md rule R6), fixed. -/
  cfg : Config
deriving DecidableEq, Repr

/-- The fatal errors of 60_exceptions.md rule R260. -/
inductive Fault where
  /-- `Fatal.UnmappableOpcode(b, a)` (rule R261). Raised by `step` when the byte at the program counter is one of
  the 105 of 30_encoding.md rule R97. As the spec says: safe. -/
  | unmappableOpcode (b : Byte) (a : Addr)
  /-- `Fatal.IllegalMnemonic` (rule R262). Raised by nothing: the table holds no illegal mnemonic. Safe. -/
  | illegalMnemonic (mn : Mnemonic)
  /-- `Fatal.UnsupportedOperand` (rule R263). Raised by `performOperation`, for an operand built by hand whose mode
  the mnemonic does not have; never by `step`. Safe. -/
  | unsupportedOperand (mn : Mnemonic) (mode : Mode)
  /-- `Fatal.UnknownLabel` (rule R264). Raised by nothing in the engine: operands read from memory are concrete.
  Safe. -/
  | unknownLabel (name : String)
deriving DecidableEq, Repr

/-- What the model turns away. -/
inductive Refusal where
  /-- An instruction without a meaning. Every instruction has one, so nothing raises it. Safe. -/
  | notModelled (mnemonic : String)
  /-- `loadRawImage` of fewer than two bytes (20_memory.md rule R78). Raised by the host action only. Safe. -/
  | imageTooShort
  /-- `loadRawImage` past the end of memory (20_memory.md rule R78). Raised by the host action only. Safe. -/
  | imagePastEnd
deriving DecidableEq, Repr

/-- What an instruction or a step answers. -/
abbrev StepResult := Host.Outcome State Fault Refusal

/-- A freshly constructed machine with the given parameters (10_state.md rule R36, 70_reset_and_hazards.md rule
R300). Memory reads 0x00 by the source; the other values are the spec's decision D5 (log 3). -/
def State.construct (cfg : Config) : State where
  a := 0x00
  x := 0x00
  y := 0x00
  sp := cfg.spReset
  pc := 0x0000
  flags := { c := false, z := false, i := false, d := false, b := false, v := false, n := false }
  mem := []
  trapTable := []
  opCount := 0
  listeners := []
  delivered := []
  hookTick := 0
  cfg := cfg

/-- The machine right after construction, with the default parameters (logs 1, 2, 3). -/
def State.reset : State := State.construct {}

end Sys2Proof.Machine
end

