-- ==== Sys2Proof/Machine/Flags.lean ====
section
/-! DEFINITION. Every flag computation of the spec: `setNZ`, packing and unpacking the status byte (10_state.md
section 3 and 4), the sums of ADC and SBC, the comparison, and the shifts' results (41_arithmetic_logic.md,
42_shift_rotate.md). -/

namespace Sys2Proof

/-- `setNZ(v)` of 10_state.md rule R27 on the flags: `Z` is whether `v` is 0, `N` is `v[7]`. -/
def Flags.setNZ (f : Flags) (v : Byte) : Flags := { f with z := v == 0, n := v.getLsbD 7 }

/-- `PackP()` of 10_state.md rule R29. -/
def Flags.pack (f : Flags) : Byte :=
  BitVec.ofNat 8 (f.n.toNat * 128 + f.v.toNat * 64 + 32 + f.b.toNat * 16 + f.d.toNat * 8 + f.i.toNat * 4 +
    f.z.toNat * 2 + f.c.toNat)

/-- `P <- b` of 10_state.md rule R30: all seven flags are loaded, bit 5 is ignored. -/
def Flags.unpack (b : Byte) : Flags where
  n := b.getLsbD 7
  v := b.getLsbD 6
  b := b.getLsbD 4
  d := b.getLsbD 3
  i := b.getLsbD 2
  z := b.getLsbD 1
  c := b.getLsbD 0

namespace Machine

/-! ### ADC (41_arithmetic_logic.md rule R161) -/

/-- `sum <- A + m + C`, 0 to 511. -/
def adcSum (a m : Byte) (c : Bool) : Nat := a.toNat + m.toNat + c.toNat

/-- `r <- sum mod 256`. -/
def adcResult (a m : Byte) (c : Bool) : Byte := BitVec.ofNat 8 (adcSum a m c)

/-- The flags after ADC, from the old accumulator. -/
def adcFlags (f : Flags) (a m : Byte) : Flags :=
  let r := adcResult a m f.c
  { f with c := decide (adcSum a m f.c > 0xFF), v := ((a ^^^ r) &&& (m ^^^ r) &&& 0x80) != 0 }.setNZ r

/-! ### SBC (41_arithmetic_logic.md rule R162) -/

/-- `diff <- A - m - (1 - C)`, -256 to 255. -/
def sbcDiff (a m : Byte) (c : Bool) : Int := (a.toNat : Int) - (m.toNat : Int) - (1 - (c.toNat : Int))

/-- `r <- diff mod 256`. -/
def sbcResult (a m : Byte) (c : Bool) : Byte := BitVec.ofInt 8 (sbcDiff a m c)

/-- The flags after SBC, from the old accumulator. -/
def sbcFlags (f : Flags) (a m : Byte) : Flags :=
  let r := sbcResult a m f.c
  { f with c := decide (sbcDiff a m f.c ≥ 0), v := ((a ^^^ m) &&& (a ^^^ r) &&& 0x80) != 0 }.setNZ r

/-! ### Compare and bit test (rules R167 to R170) -/

/-- The flags after comparing register value `r` with `m`: `C` is the unsigned `r >= m`, `Z` and `N` are of
`(r - m) mod 256`. -/
def compareFlags (f : Flags) (r m : Byte) : Flags := { f with c := decide (r.toNat ≥ m.toNat) }.setNZ (r - m)

/-- The flags after BIT: `Z` of `A & m`, `N` and `V` of bits 7 and 6 of `m`. -/
def bitFlags (f : Flags) (a m : Byte) : Flags :=
  { f with z := (a &&& m) == 0, n := m.getLsbD 7, v := m.getLsbD 6 }

/-! ### Shifts and rotates (42_shift_rotate.md): the `f` of each instruction, the new value and the new `C` -/

/-- A shift: from the old value and the old `C` to the new value and the new `C`. -/
structure Shifted where
  value : Byte
  carry : Bool
deriving DecidableEq, Repr

/-- ASL (rule R191). -/
def shiftAsl (old : Byte) (_c : Bool) : Shifted :=
  { value := BitVec.ofNat 8 (old.toNat * 2), carry := old.getLsbD 7 }

/-- LSR (rule R192). -/
def shiftLsr (old : Byte) (_c : Bool) : Shifted :=
  { value := BitVec.ofNat 8 (old.toNat / 2), carry := old.getLsbD 0 }

/-- ROL (rule R193). -/
def shiftRol (old : Byte) (c : Bool) : Shifted :=
  { value := BitVec.ofNat 8 (old.toNat * 2) ||| BitVec.ofNat 8 c.toNat, carry := old.getLsbD 7 }

/-- ROR (rule R194). -/
def shiftRor (old : Byte) (c : Bool) : Shifted :=
  { value := BitVec.ofNat 8 (old.toNat / 2) ||| BitVec.ofNat 8 (c.toNat * 128), carry := old.getLsbD 0 }

/-- The flags after a shift: `C` as the shift leaves it, `Z` and `N` of the result. -/
def shiftFlags (f : Flags) (r : Shifted) : Flags := { f with c := r.carry }.setNZ r.value

end Machine
end Sys2Proof
end

