-- ==== Sys2Proof/Machine/Ops.lean ====
section
/-! DEFINITION. The named operations over registers, memory and the stack (20_memory.md), the emission of events
(60_exceptions.md rule R290), and, as one shared operation each, interrupt entry (rule R270) and the two returns
(44_control_transfer.md rule R223, 45_system.md rule R242). -/

namespace Sys2Proof

/-! ### Memory as a canonical list -/

/-- The byte at an address. -/
def Memory.read : Memory → Nat → Byte
  | [], _ => Memory.unwritten
  | (k', v') :: rest, k => if k = k' then v' else Memory.read rest k

/-- Memory without an entry at an address. -/
def Memory.erase (m : Memory) (k : Nat) : Memory := m.filter fun c => c.1 ≠ k

/-- Memory with an entry put where the addresses stay rising. -/
def Memory.insert : Memory → Nat → Byte → Memory
  | [], k, v => [(k, v)]
  | (k', v') :: rest, k, v => if k < k' then (k, v) :: (k', v') :: rest else (k', v') :: Memory.insert rest k v

/-- Store a byte, keeping the canonical form: a byte that reads as unwritten is not listed. -/
def Memory.write (m : Memory) (k : Nat) (v : Byte) : Memory :=
  if v = Memory.unwritten then m.erase k else (m.erase k).insert k v

namespace Machine

/-! ### One update per register -/

/-- `A <- v`. -/
def State.withA (s : State) (v : Byte) : State := { s with a := v }

/-- `X <- v`. -/
def State.withX (s : State) (v : Byte) : State := { s with x := v }

/-- `Y <- v`. -/
def State.withY (s : State) (v : Byte) : State := { s with y := v }

/-- `SP <- v`. -/
def State.withSp (s : State) (v : Byte) : State := { s with sp := v }

/-- `pc <- t`; 16 bits, so reduced modulo 65536 (10_state.md rule R22). -/
def State.withPc (s : State) (t : Addr) : State := { s with pc := t }

/-- Write the flags. -/
def State.withFlags (s : State) (f : Flags) : State := { s with flags := f }

/-- Write the whole memory. -/
def State.withMem (s : State) (m : Memory) : State := { s with mem := m }

/-- Write the registry. -/
def State.withTrapTable (s : State) (t : TrapTable) : State := { s with trapTable := t }

/-- `opCount <- opCount + 1` (10_state.md rule R35). -/
def State.countStep (s : State) : State := { s with opCount := s.opCount + 1 }

/-- One more hook has been invoked (log 5). -/
def State.countHook (s : State) : State := { s with hookTick := s.hookTick + 1 }

/-- Append a listener (60_exceptions.md rule R290). -/
def State.addListener (s : State) (l : Listener) : State := { s with listeners := s.listeners ++ [l] }

/-- `setNZ(v)` of 10_state.md rule R27. -/
def State.setNZ (s : State) (v : Byte) : State := s.withFlags (s.flags.setNZ v)

/-- Registers, flags and memory: what a hook sees (60_exceptions.md rule R281). -/
def State.view (s : State) : MachineView :=
  { a := s.a, x := s.x, y := s.y, sp := s.sp, pc := s.pc, flags := s.flags, mem := s.mem }

/-! ### Events (60_exceptions.md rule R290) -/

/-- The kind of an event. -/
def eventKind : Event → EventKind
  | .operationPerformed _ _ => .operationPerformed
  | .memoryChanged _ _ _ => .memoryChanged
  | .jumpedTo _ => .jumpedTo
  | .registerStateChanged _ => .registerStateChanged

/-- Whether a listener has subscribed for an event: for all events, or for its kind. -/
def Listener.wants (l : Listener) (e : Event) : Bool :=
  match l.filter with
  | none => true
  | some k => k == eventKind e

/-- The notifications of a sequence of events: each event in turn, to the listeners in registration order. -/
def notifications (ls : List Listener) (es : List Event) : List Delivery :=
  match ls with
  | [] => []
  | _ :: _ => es.flatMap fun e => (ls.filter fun l => l.wants e).map fun l => ⟨l, e⟩

/-- Publish events: every listener that wants one is notified, none is dropped. Nothing else changes. -/
def State.emit (s : State) (es : List Event) : State :=
  { s with delivered := s.delivered ++ notifications s.listeners es }

/-- The snapshot that a register-state-changed event carries (log 13). -/
def State.snapshot (s : State) : Snapshot :=
  { a := s.a, x := s.x, y := s.y, sp := s.sp, pc := s.pc, p := s.flags.pack }

/-- A change of control flow has happened: a jumped-to event may be emitted (log 9). -/
def announceJump (cause : JumpCause) (before after : State) : State :=
  after.emit (if Config.emitsJumpedTo cause before.view after.view then [.jumpedTo after.pc] else [])

/-! ### Memory accesses (20_memory.md rules R62 to R66) -/

/-- `MemRead(a, 1)`. -/
def State.memRead (s : State) (a : Addr) : Byte := s.mem.read a.toNat

/-- `MemRead(a, 2)` of 00_scope.md rule R9: little-endian, the second byte at `a + 1` modulo 65536. -/
def State.memRead16 (s : State) (a : Addr) : Addr := word (s.memRead (a + 1)) (s.memRead a)

/-- `MemWrite(a, 1, v)` of rule R66: the byte, and the memory-changed event. -/
def State.memWrite (s : State) (a : Addr) (v : Byte) : State :=
  (s.withMem (s.mem.write a.toNat v)).emit [.memoryChanged a (s.memRead a) v]

/-- A sequence of byte writes, in order. -/
def State.memWrites (s : State) : List (Addr × Byte) → State
  | [] => s
  | (a, v) :: rest => (s.memWrite a v).memWrites rest

/-! ### The stack (20_memory.md rules R68 to R71) -/

/-- The stack top `STACK_BASE + SP` (rule R68). -/
def State.stackTop (s : State) : Addr := s.cfg.stackBase + zext s.sp

/-- `push8(v)` of rule R69: write, then decrement `SP` modulo 256. -/
def State.push8 (s : State) (v : Byte) : State :=
  let t := s.memWrite s.stackTop v
  t.withSp (t.sp - 1)

/-- The state after `pop8()` of rule R70: `SP` incremented modulo 256. -/
def State.pop8 (s : State) : State := s.withSp (s.sp + 1)

/-- The byte `pop8()` returns: the one at the stack top after the increment. -/
def State.popped8 (s : State) : Byte := s.pop8.memRead s.pop8.stackTop

/-- Push a 16-bit address, high byte first (rule R71). -/
def State.push16 (s : State) (w : Addr) : State := (s.push8 (hi8 w)).push8 (lo8 w)

/-- The state after popping a 16-bit address. -/
def State.pop16 (s : State) : State := s.pop8.pop8

/-- The 16-bit address that is popped, low byte first (rule R71). -/
def State.popped16 (s : State) : Addr := word s.pop8.popped8 s.popped8

/-! ### Interrupt entry and the returns -/

/-- `InterruptEntry()` of 60_exceptions.md rule R270: push `PC` and the status byte as it is, set `I`, and load
`PC` from the vector that the live `B` chooses, read after the pushes. -/
def interruptEntry (s : State) : State :=
  let t := (s.push16 s.pc).push8 s.flags.pack
  let u := t.withFlags { t.flags with i := true }
  u.withPc (if u.flags.b then u.memRead16 u.cfg.vecBrk else u.memRead16 u.cfg.vecIrq)

/-- What RTI does (45_system.md rule R242): pop the status byte, then the address, with no bias. -/
def returnFromInterrupt (s : State) : State :=
  let t := s.pop8.withFlags (Flags.unpack s.popped8)
  t.pop16.withPc t.popped16

/-- What RTS does (44_control_transfer.md rule R223): pop the address and add RETURN_BIAS. -/
def returnFromSubroutine (s : State) : State := s.pop16.withPc (s.popped16 + s.cfg.returnBias)

end Machine
end Sys2Proof
end

