-- ==== Sys2Proof/Machine/Operands.lean ====
section
/-! DEFINITION. Operand forms: effective addresses (30_encoding.md rules R100 to R110), 8-bit source values (rule
R111), relative targets (rule R112), and the shared modify-in-place helper (42_shift_rotate.md rule R190). -/

namespace Sys2Proof.Machine

/-- `ea(mode, op)`. A zero-page index sum is not reduced modulo 256 (rules R103, R104, R108): a byte and an index
read in 16 bits add without wrapping. -/
def ea (m : MemOperand) (s : State) : Addr :=
  match m with
  | .zp op => zext op
  | .zpx op => zext op + zext s.x
  | .zpy op => zext op + zext s.y
  | .abs op => op
  | .absx op => op + zext s.x
  | .absy op => op + zext s.y
  | .indx op => s.memRead16 (zext op + zext s.x)
  | .indy op => s.memRead16 (zext op) + zext s.y

/-- `operand8(mode, op)` of rule R111. -/
def operand8 (src : Source) (s : State) : Byte :=
  match src with
  | .imm op => op
  | .acc => s.a
  | .mem m => s.memRead (ea m s)

/-- The target of a relative operand (rule R112), `PC` being the address after the branch. -/
def relTarget (op : Byte) (s : State) : Addr := s.pc + sext8 op

/-- `Modify(mode, op, f)` of rule R190: the accumulator, or one read and one write at one address; then `C` as the
shift leaves it and `setNZ` of the result. The shift reads the `C` of before. -/
def modifyInPlace (p : Place) (f : Byte → Bool → Shifted) (s : State) : State :=
  match p with
  | .acc =>
    let r := f s.a s.flags.c
    (s.withA r.value).withFlags (shiftFlags s.flags r)
  | .mem m =>
    let addr := ea m s
    let r := f (s.memRead addr) s.flags.c
    (s.memWrite addr r.value).withFlags (shiftFlags s.flags r)

end Sys2Proof.Machine
end

