-- ==== Sys2Proof/Machine/Arithmetic.lean ====
section
/-! DEFINITION. Arithmetic, logic, compare, increment and decrement (41_arithmetic_logic.md rules R160 to R178): one
shared operation per mnemonic, then one meaning per instruction. `D` is read by none of them (rule R163). -/

namespace Sys2Proof.Machine

/-- ADC (rule R161). -/
def adc (src : Source) (s : State) : State :=
  let m := operand8 src s
  (s.withA (adcResult s.a m s.flags.c)).withFlags (adcFlags s.flags s.a m)

/-- SBC (rule R162). -/
def sbc (src : Source) (s : State) : State :=
  let m := operand8 src s
  (s.withA (sbcResult s.a m s.flags.c)).withFlags (sbcFlags s.flags s.a m)

/-- AND (rule R164). -/
def andA (src : Source) (s : State) : State :=
  let r := s.a &&& operand8 src s
  (s.withA r).setNZ r

/-- ORA (rule R165). -/
def oraA (src : Source) (s : State) : State :=
  let r := s.a ||| operand8 src s
  (s.withA r).setNZ r

/-- EOR (rule R166). -/
def eorA (src : Source) (s : State) : State :=
  let r := s.a ^^^ operand8 src s
  (s.withA r).setNZ r

/-- BIT (rule R167). -/
def bitTest (src : Source) (s : State) : State := s.withFlags (bitFlags s.flags s.a (operand8 src s))

/-- CMP (rule R168). -/
def cmp (src : Source) (s : State) : State := s.withFlags (compareFlags s.flags s.a (operand8 src s))

/-- CPX (rule R169). -/
def cpx (src : Source) (s : State) : State := s.withFlags (compareFlags s.flags s.x (operand8 src s))

/-- CPY (rule R170). -/
def cpy (src : Source) (s : State) : State := s.withFlags (compareFlags s.flags s.y (operand8 src s))

/-- INC (rule R171): one read and one write at the same address. -/
def incMem (m : MemOperand) (s : State) : State :=
  let addr := ea m s
  let r := s.memRead addr + 1
  (s.memWrite addr r).setNZ r

/-- DEC (rule R172). -/
def decMem (m : MemOperand) (s : State) : State :=
  let addr := ea m s
  let r := s.memRead addr - 1
  (s.memWrite addr r).setNZ r

/-- ADC imm, encoding 0x69 (rule R161). -/
def execAdcImm (op : Byte) (s : State) : StepResult := .next (adc (.imm op) s)

/-- ADC zp, encoding 0x65 (rule R161). -/
def execAdcZp (op : Byte) (s : State) : StepResult := .next (adc (.mem (.zp op)) s)

/-- ADC zpx, encoding 0x75 (rule R161). -/
def execAdcZpx (op : Byte) (s : State) : StepResult := .next (adc (.mem (.zpx op)) s)

/-- ADC abs, encoding 0x6D (rule R161). -/
def execAdcAbs (op : Addr) (s : State) : StepResult := .next (adc (.mem (.abs op)) s)

/-- ADC absx, encoding 0x7D (rule R161). -/
def execAdcAbsx (op : Addr) (s : State) : StepResult := .next (adc (.mem (.absx op)) s)

/-- ADC absy, encoding 0x79 (rule R161). -/
def execAdcAbsy (op : Addr) (s : State) : StepResult := .next (adc (.mem (.absy op)) s)

/-- ADC indx, encoding 0x61 (rule R161). -/
def execAdcIndx (op : Byte) (s : State) : StepResult := .next (adc (.mem (.indx op)) s)

/-- ADC indy, encoding 0x71 (rule R161). -/
def execAdcIndy (op : Byte) (s : State) : StepResult := .next (adc (.mem (.indy op)) s)

/-- SBC imm, encoding 0xE9 (rule R162). -/
def execSbcImm (op : Byte) (s : State) : StepResult := .next (sbc (.imm op) s)

/-- SBC zp, encoding 0xE5 (rule R162). -/
def execSbcZp (op : Byte) (s : State) : StepResult := .next (sbc (.mem (.zp op)) s)

/-- SBC zpx, encoding 0xF5 (rule R162). -/
def execSbcZpx (op : Byte) (s : State) : StepResult := .next (sbc (.mem (.zpx op)) s)

/-- SBC abs, encoding 0xED (rule R162). -/
def execSbcAbs (op : Addr) (s : State) : StepResult := .next (sbc (.mem (.abs op)) s)

/-- SBC absx, encoding 0xFD (rule R162). -/
def execSbcAbsx (op : Addr) (s : State) : StepResult := .next (sbc (.mem (.absx op)) s)

/-- SBC absy, encoding 0xF9 (rule R162). -/
def execSbcAbsy (op : Addr) (s : State) : StepResult := .next (sbc (.mem (.absy op)) s)

/-- SBC indx, encoding 0xE1 (rule R162). -/
def execSbcIndx (op : Byte) (s : State) : StepResult := .next (sbc (.mem (.indx op)) s)

/-- SBC indy, encoding 0xF1 (rule R162). -/
def execSbcIndy (op : Byte) (s : State) : StepResult := .next (sbc (.mem (.indy op)) s)

/-- AND imm, encoding 0x29 (rule R164). -/
def execAndImm (op : Byte) (s : State) : StepResult := .next (andA (.imm op) s)

/-- AND zp, encoding 0x25 (rule R164). -/
def execAndZp (op : Byte) (s : State) : StepResult := .next (andA (.mem (.zp op)) s)

/-- AND zpx, encoding 0x35 (rule R164). -/
def execAndZpx (op : Byte) (s : State) : StepResult := .next (andA (.mem (.zpx op)) s)

/-- AND abs, encoding 0x2D (rule R164). -/
def execAndAbs (op : Addr) (s : State) : StepResult := .next (andA (.mem (.abs op)) s)

/-- AND absx, encoding 0x3D (rule R164). -/
def execAndAbsx (op : Addr) (s : State) : StepResult := .next (andA (.mem (.absx op)) s)

/-- AND absy, encoding 0x39 (rule R164). -/
def execAndAbsy (op : Addr) (s : State) : StepResult := .next (andA (.mem (.absy op)) s)

/-- AND indx, encoding 0x21 (rule R164). -/
def execAndIndx (op : Byte) (s : State) : StepResult := .next (andA (.mem (.indx op)) s)

/-- AND indy, encoding 0x31 (rule R164). -/
def execAndIndy (op : Byte) (s : State) : StepResult := .next (andA (.mem (.indy op)) s)

/-- ORA imm, encoding 0x09 (rule R165). -/
def execOraImm (op : Byte) (s : State) : StepResult := .next (oraA (.imm op) s)

/-- ORA zp, encoding 0x05 (rule R165). -/
def execOraZp (op : Byte) (s : State) : StepResult := .next (oraA (.mem (.zp op)) s)

/-- ORA zpx, encoding 0x15 (rule R165). -/
def execOraZpx (op : Byte) (s : State) : StepResult := .next (oraA (.mem (.zpx op)) s)

/-- ORA abs, encoding 0x0D (rule R165). -/
def execOraAbs (op : Addr) (s : State) : StepResult := .next (oraA (.mem (.abs op)) s)

/-- ORA absx, encoding 0x1D (rule R165). -/
def execOraAbsx (op : Addr) (s : State) : StepResult := .next (oraA (.mem (.absx op)) s)

/-- ORA absy, encoding 0x19 (rule R165). -/
def execOraAbsy (op : Addr) (s : State) : StepResult := .next (oraA (.mem (.absy op)) s)

/-- ORA indx, encoding 0x01 (rule R165). -/
def execOraIndx (op : Byte) (s : State) : StepResult := .next (oraA (.mem (.indx op)) s)

/-- ORA indy, encoding 0x11 (rule R165). -/
def execOraIndy (op : Byte) (s : State) : StepResult := .next (oraA (.mem (.indy op)) s)

/-- EOR imm, encoding 0x49 (rule R166). -/
def execEorImm (op : Byte) (s : State) : StepResult := .next (eorA (.imm op) s)

/-- EOR zp, encoding 0x45 (rule R166). -/
def execEorZp (op : Byte) (s : State) : StepResult := .next (eorA (.mem (.zp op)) s)

/-- EOR zpx, encoding 0x55 (rule R166). -/
def execEorZpx (op : Byte) (s : State) : StepResult := .next (eorA (.mem (.zpx op)) s)

/-- EOR abs, encoding 0x4D (rule R166). -/
def execEorAbs (op : Addr) (s : State) : StepResult := .next (eorA (.mem (.abs op)) s)

/-- EOR absx, encoding 0x5D (rule R166). -/
def execEorAbsx (op : Addr) (s : State) : StepResult := .next (eorA (.mem (.absx op)) s)

/-- EOR absy, encoding 0x59 (rule R166). -/
def execEorAbsy (op : Addr) (s : State) : StepResult := .next (eorA (.mem (.absy op)) s)

/-- EOR indx, encoding 0x41 (rule R166). -/
def execEorIndx (op : Byte) (s : State) : StepResult := .next (eorA (.mem (.indx op)) s)

/-- EOR indy, encoding 0x51 (rule R166). -/
def execEorIndy (op : Byte) (s : State) : StepResult := .next (eorA (.mem (.indy op)) s)

/-- BIT zp, encoding 0x24 (rule R167). -/
def execBitZp (op : Byte) (s : State) : StepResult := .next (bitTest (.mem (.zp op)) s)

/-- BIT abs, encoding 0x2C (rule R167). -/
def execBitAbs (op : Addr) (s : State) : StepResult := .next (bitTest (.mem (.abs op)) s)

/-- CMP imm, encoding 0xC9 (rule R168). -/
def execCmpImm (op : Byte) (s : State) : StepResult := .next (cmp (.imm op) s)

/-- CMP zp, encoding 0xC5 (rule R168). -/
def execCmpZp (op : Byte) (s : State) : StepResult := .next (cmp (.mem (.zp op)) s)

/-- CMP zpx, encoding 0xD5 (rule R168). -/
def execCmpZpx (op : Byte) (s : State) : StepResult := .next (cmp (.mem (.zpx op)) s)

/-- CMP abs, encoding 0xCD (rule R168). -/
def execCmpAbs (op : Addr) (s : State) : StepResult := .next (cmp (.mem (.abs op)) s)

/-- CMP absx, encoding 0xDD (rule R168). -/
def execCmpAbsx (op : Addr) (s : State) : StepResult := .next (cmp (.mem (.absx op)) s)

/-- CMP absy, encoding 0xD9 (rule R168). -/
def execCmpAbsy (op : Addr) (s : State) : StepResult := .next (cmp (.mem (.absy op)) s)

/-- CMP indx, encoding 0xC1 (rule R168). -/
def execCmpIndx (op : Byte) (s : State) : StepResult := .next (cmp (.mem (.indx op)) s)

/-- CMP indy, encoding 0xD1 (rule R168). -/
def execCmpIndy (op : Byte) (s : State) : StepResult := .next (cmp (.mem (.indy op)) s)

/-- CPX imm, encoding 0xE0 (rule R169). -/
def execCpxImm (op : Byte) (s : State) : StepResult := .next (cpx (.imm op) s)

/-- CPX zp, encoding 0xE4 (rule R169). -/
def execCpxZp (op : Byte) (s : State) : StepResult := .next (cpx (.mem (.zp op)) s)

/-- CPX abs, encoding 0xEC (rule R169). -/
def execCpxAbs (op : Addr) (s : State) : StepResult := .next (cpx (.mem (.abs op)) s)

/-- CPY imm, encoding 0xC0 (rule R170). -/
def execCpyImm (op : Byte) (s : State) : StepResult := .next (cpy (.imm op) s)

/-- CPY zp, encoding 0xC4 (rule R170). -/
def execCpyZp (op : Byte) (s : State) : StepResult := .next (cpy (.mem (.zp op)) s)

/-- CPY abs, encoding 0xCC (rule R170). -/
def execCpyAbs (op : Addr) (s : State) : StepResult := .next (cpy (.mem (.abs op)) s)

/-- INC zp, encoding 0xE6 (rule R171). -/
def execIncZp (op : Byte) (s : State) : StepResult := .next (incMem (.zp op) s)

/-- INC zpx, encoding 0xF6 (rule R171). -/
def execIncZpx (op : Byte) (s : State) : StepResult := .next (incMem (.zpx op) s)

/-- INC abs, encoding 0xEE (rule R171). -/
def execIncAbs (op : Addr) (s : State) : StepResult := .next (incMem (.abs op) s)

/-- INC absx, encoding 0xFE (rule R171). -/
def execIncAbsx (op : Addr) (s : State) : StepResult := .next (incMem (.absx op) s)

/-- DEC zp, encoding 0xC6 (rule R172). -/
def execDecZp (op : Byte) (s : State) : StepResult := .next (decMem (.zp op) s)

/-- DEC zpx, encoding 0xD6 (rule R172). -/
def execDecZpx (op : Byte) (s : State) : StepResult := .next (decMem (.zpx op) s)

/-- DEC abs, encoding 0xCE (rule R172). -/
def execDecAbs (op : Addr) (s : State) : StepResult := .next (decMem (.abs op) s)

/-- DEC absx, encoding 0xDE (rule R172). -/
def execDecAbsx (op : Addr) (s : State) : StepResult := .next (decMem (.absx op) s)

/-- INX imp, encoding 0xE8 (rule R173). -/
def execInx (s : State) : StepResult := .next ((s.withX (s.x + 1)).setNZ (s.x + 1))

/-- INY imp, encoding 0xC8 (rule R174). -/
def execIny (s : State) : StepResult := .next ((s.withY (s.y + 1)).setNZ (s.y + 1))

/-- DEX imp, encoding 0xCA (rule R175). -/
def execDex (s : State) : StepResult := .next ((s.withX (s.x - 1)).setNZ (s.x - 1))

/-- DEY imp, encoding 0x88 (rule R176). -/
def execDey (s : State) : StepResult := .next ((s.withY (s.y - 1)).setNZ (s.y - 1))

end Sys2Proof.Machine
end

