-- ==== Sys2Proof/Machine/Control.lean ====
section
/-! DEFINITION. Jumps, subroutines and branches (44_control_transfer.md rules R220 to R233). When a meaning runs, `PC`
is already the address after the instruction (10_state.md rule R23). -/

namespace Sys2Proof.Machine

/-- The common rule of the conditional branches (rule R224). -/
def branch (cond : Bool) (op : Byte) (s : State) : State := if cond then s.withPc (relTarget op s) else s

/-- JSR (rule R222): push the address of the next instruction less RETURN_BIAS, then jump. -/
def jsr (op : Addr) (s : State) : State := (s.push16 (s.pc - s.cfg.returnBias)).withPc op

/-- JMP abs, encoding 0x4C (rule R221). -/
def execJmpAbs (op : Addr) (s : State) : StepResult := .next (s.withPc op)

/-- JMP ind, encoding 0x6C (rule R221). -/
def execJmpInd (op : Addr) (s : State) : StepResult := .next (s.withPc (s.memRead16 op))

/-- JSR abs, encoding 0x20 (rule R222). -/
def execJsr (op : Addr) (s : State) : StepResult := .next (jsr op s)

/-- RTS imp, encoding 0x60 (rule R223). -/
def execRts (s : State) : StepResult := .next (returnFromSubroutine s)

/-- BCC rel, encoding 0x90 (rule R225). -/
def execBcc (op : Byte) (s : State) : StepResult := .next (branch (!s.flags.c) op s)

/-- BCS rel, encoding 0xB0 (rule R226). -/
def execBcs (op : Byte) (s : State) : StepResult := .next (branch s.flags.c op s)

/-- BEQ rel, encoding 0xF0 (rule R227). -/
def execBeq (op : Byte) (s : State) : StepResult := .next (branch s.flags.z op s)

/-- BNE rel, encoding 0xD0 (rule R228). -/
def execBne (op : Byte) (s : State) : StepResult := .next (branch (!s.flags.z) op s)

/-- BMI rel, encoding 0x30 (rule R229). -/
def execBmi (op : Byte) (s : State) : StepResult := .next (branch s.flags.n op s)

/-- BPL rel, encoding 0x10 (rule R230). -/
def execBpl (op : Byte) (s : State) : StepResult := .next (branch (!s.flags.n) op s)

/-- BVC rel, encoding 0x50 (rule R231). -/
def execBvc (op : Byte) (s : State) : StepResult := .next (branch (!s.flags.v) op s)

/-- BVS rel, encoding 0x70 (rule R232). -/
def execBvs (op : Byte) (s : State) : StepResult := .next (branch s.flags.v op s)

end Sys2Proof.Machine
end

