-- ==== Sys2Proof/Machine/LoadStore.lean ====
section
/-! DEFINITION. Loads, stores and register transfers (40_load_store_transfer.md rules R140 to R152): one shared
operation per mnemonic, then one meaning per instruction. -/

namespace Sys2Proof.Machine

/-- LDA (rule R141). -/
def lda (src : Source) (s : State) : State :=
  let v := operand8 src s
  (s.withA v).setNZ v

/-- LDX (rule R142). -/
def ldx (src : Source) (s : State) : State :=
  let v := operand8 src s
  (s.withX v).setNZ v

/-- LDY (rule R143). -/
def ldy (src : Source) (s : State) : State :=
  let v := operand8 src s
  (s.withY v).setNZ v

/-- STA (rule R144). -/
def sta (m : MemOperand) (s : State) : State := s.memWrite (ea m s) s.a

/-- STX (rule R145). -/
def stx (m : MemOperand) (s : State) : State := s.memWrite (ea m s) s.x

/-- STY (rule R146). -/
def sty (m : MemOperand) (s : State) : State := s.memWrite (ea m s) s.y

/-- LDA imm, encoding 0xA9 (rule R141). -/
def execLdaImm (op : Byte) (s : State) : StepResult := .next (lda (.imm op) s)

/-- LDA zp, encoding 0xA5 (rule R141). -/
def execLdaZp (op : Byte) (s : State) : StepResult := .next (lda (.mem (.zp op)) s)

/-- LDA zpx, encoding 0xB5 (rule R141). -/
def execLdaZpx (op : Byte) (s : State) : StepResult := .next (lda (.mem (.zpx op)) s)

/-- LDA abs, encoding 0xAD (rule R141). -/
def execLdaAbs (op : Addr) (s : State) : StepResult := .next (lda (.mem (.abs op)) s)

/-- LDA absx, encoding 0xBD (rule R141). -/
def execLdaAbsx (op : Addr) (s : State) : StepResult := .next (lda (.mem (.absx op)) s)

/-- LDA absy, encoding 0xB9 (rule R141). -/
def execLdaAbsy (op : Addr) (s : State) : StepResult := .next (lda (.mem (.absy op)) s)

/-- LDA indx, encoding 0xA1 (rule R141). -/
def execLdaIndx (op : Byte) (s : State) : StepResult := .next (lda (.mem (.indx op)) s)

/-- LDA indy, encoding 0xB1 (rule R141). -/
def execLdaIndy (op : Byte) (s : State) : StepResult := .next (lda (.mem (.indy op)) s)

/-- LDX imm, encoding 0xA2 (rule R142). -/
def execLdxImm (op : Byte) (s : State) : StepResult := .next (ldx (.imm op) s)

/-- LDX zp, encoding 0xA6 (rule R142). -/
def execLdxZp (op : Byte) (s : State) : StepResult := .next (ldx (.mem (.zp op)) s)

/-- LDX zpy, encoding 0xB6 (rule R142). -/
def execLdxZpy (op : Byte) (s : State) : StepResult := .next (ldx (.mem (.zpy op)) s)

/-- LDX abs, encoding 0xAE (rule R142). -/
def execLdxAbs (op : Addr) (s : State) : StepResult := .next (ldx (.mem (.abs op)) s)

/-- LDX absy, encoding 0xBE (rule R142). -/
def execLdxAbsy (op : Addr) (s : State) : StepResult := .next (ldx (.mem (.absy op)) s)

/-- LDY imm, encoding 0xA0 (rule R143). -/
def execLdyImm (op : Byte) (s : State) : StepResult := .next (ldy (.imm op) s)

/-- LDY zp, encoding 0xA4 (rule R143). -/
def execLdyZp (op : Byte) (s : State) : StepResult := .next (ldy (.mem (.zp op)) s)

/-- LDY zpx, encoding 0xB4 (rule R143). -/
def execLdyZpx (op : Byte) (s : State) : StepResult := .next (ldy (.mem (.zpx op)) s)

/-- LDY abs, encoding 0xAC (rule R143). -/
def execLdyAbs (op : Addr) (s : State) : StepResult := .next (ldy (.mem (.abs op)) s)

/-- LDY absx, encoding 0xBC (rule R143). -/
def execLdyAbsx (op : Addr) (s : State) : StepResult := .next (ldy (.mem (.absx op)) s)

/-- STA zp, encoding 0x85 (rule R144). -/
def execStaZp (op : Byte) (s : State) : StepResult := .next (sta (.zp op) s)

/-- STA zpx, encoding 0x95 (rule R144). -/
def execStaZpx (op : Byte) (s : State) : StepResult := .next (sta (.zpx op) s)

/-- STA abs, encoding 0x8D (rule R144). -/
def execStaAbs (op : Addr) (s : State) : StepResult := .next (sta (.abs op) s)

/-- STA absx, encoding 0x9D (rule R144). -/
def execStaAbsx (op : Addr) (s : State) : StepResult := .next (sta (.absx op) s)

/-- STA absy, encoding 0x99 (rule R144). -/
def execStaAbsy (op : Addr) (s : State) : StepResult := .next (sta (.absy op) s)

/-- STA indx, encoding 0x81 (rule R144). -/
def execStaIndx (op : Byte) (s : State) : StepResult := .next (sta (.indx op) s)

/-- STA indy, encoding 0x91 (rule R144). -/
def execStaIndy (op : Byte) (s : State) : StepResult := .next (sta (.indy op) s)

/-- STX zp, encoding 0x86 (rule R145). -/
def execStxZp (op : Byte) (s : State) : StepResult := .next (stx (.zp op) s)

/-- STX zpy, encoding 0x96 (rule R145). -/
def execStxZpy (op : Byte) (s : State) : StepResult := .next (stx (.zpy op) s)

/-- STX abs, encoding 0x8E (rule R145). -/
def execStxAbs (op : Addr) (s : State) : StepResult := .next (stx (.abs op) s)

/-- STY zp, encoding 0x84 (rule R146). -/
def execStyZp (op : Byte) (s : State) : StepResult := .next (sty (.zp op) s)

/-- STY zpx, encoding 0x94 (rule R146). -/
def execStyZpx (op : Byte) (s : State) : StepResult := .next (sty (.zpx op) s)

/-- STY abs, encoding 0x8C (rule R146). -/
def execStyAbs (op : Addr) (s : State) : StepResult := .next (sty (.abs op) s)

/-- TAX imp, encoding 0xAA (rule R147). -/
def execTax (s : State) : StepResult := .next ((s.withX s.a).setNZ s.a)

/-- TAY imp, encoding 0xA8 (rule R148). -/
def execTay (s : State) : StepResult := .next ((s.withY s.a).setNZ s.a)

/-- TXA imp, encoding 0x8A (rule R149). -/
def execTxa (s : State) : StepResult := .next ((s.withA s.x).setNZ s.x)

/-- TYA imp, encoding 0x98 (rule R150). -/
def execTya (s : State) : StepResult := .next ((s.withA s.y).setNZ s.y)

/-- TSX imp, encoding 0xBA (rule R151). -/
def execTsx (s : State) : StepResult := .next ((s.withX s.sp).setNZ s.sp)

/-- TXS imp, encoding 0x9A (rule R152). -/
def execTxs (s : State) : StepResult := .next (s.withSp s.x)

end Sys2Proof.Machine
end

