-- ==== Sys2Proof/Machine/Shift.lean ====
section
/-! DEFINITION. Shifts and rotates (42_shift_rotate.md rules R190 to R194), each through the shared modify-in-place
helper. -/

namespace Sys2Proof.Machine

/-- ASL acc, encoding 0x0A (rule R191). -/
def execAslAcc (s : State) : StepResult := .next (modifyInPlace .acc shiftAsl s)

/-- ASL zp, encoding 0x06 (rule R191). -/
def execAslZp (op : Byte) (s : State) : StepResult := .next (modifyInPlace (.mem (.zp op)) shiftAsl s)

/-- ASL zpx, encoding 0x16 (rule R191). -/
def execAslZpx (op : Byte) (s : State) : StepResult := .next (modifyInPlace (.mem (.zpx op)) shiftAsl s)

/-- ASL abs, encoding 0x0E (rule R191). -/
def execAslAbs (op : Addr) (s : State) : StepResult := .next (modifyInPlace (.mem (.abs op)) shiftAsl s)

/-- ASL absx, encoding 0x1E (rule R191). -/
def execAslAbsx (op : Addr) (s : State) : StepResult := .next (modifyInPlace (.mem (.absx op)) shiftAsl s)

/-- LSR acc, encoding 0x4A (rule R192). -/
def execLsrAcc (s : State) : StepResult := .next (modifyInPlace .acc shiftLsr s)

/-- LSR zp, encoding 0x46 (rule R192). -/
def execLsrZp (op : Byte) (s : State) : StepResult := .next (modifyInPlace (.mem (.zp op)) shiftLsr s)

/-- LSR zpx, encoding 0x56 (rule R192). -/
def execLsrZpx (op : Byte) (s : State) : StepResult := .next (modifyInPlace (.mem (.zpx op)) shiftLsr s)

/-- LSR abs, encoding 0x4E (rule R192). -/
def execLsrAbs (op : Addr) (s : State) : StepResult := .next (modifyInPlace (.mem (.abs op)) shiftLsr s)

/-- LSR absx, encoding 0x5E (rule R192). -/
def execLsrAbsx (op : Addr) (s : State) : StepResult := .next (modifyInPlace (.mem (.absx op)) shiftLsr s)

/-- ROL acc, encoding 0x2A (rule R193). -/
def execRolAcc (s : State) : StepResult := .next (modifyInPlace .acc shiftRol s)

/-- ROL zp, encoding 0x26 (rule R193). -/
def execRolZp (op : Byte) (s : State) : StepResult := .next (modifyInPlace (.mem (.zp op)) shiftRol s)

/-- ROL zpx, encoding 0x36 (rule R193). -/
def execRolZpx (op : Byte) (s : State) : StepResult := .next (modifyInPlace (.mem (.zpx op)) shiftRol s)

/-- ROL abs, encoding 0x2E (rule R193). -/
def execRolAbs (op : Addr) (s : State) : StepResult := .next (modifyInPlace (.mem (.abs op)) shiftRol s)

/-- ROL absx, encoding 0x3E (rule R193). -/
def execRolAbsx (op : Addr) (s : State) : StepResult := .next (modifyInPlace (.mem (.absx op)) shiftRol s)

/-- ROR acc, encoding 0x6A (rule R194). -/
def execRorAcc (s : State) : StepResult := .next (modifyInPlace .acc shiftRor s)

/-- ROR zp, encoding 0x66 (rule R194). -/
def execRorZp (op : Byte) (s : State) : StepResult := .next (modifyInPlace (.mem (.zp op)) shiftRor s)

/-- ROR zpx, encoding 0x76 (rule R194). -/
def execRorZpx (op : Byte) (s : State) : StepResult := .next (modifyInPlace (.mem (.zpx op)) shiftRor s)

/-- ROR abs, encoding 0x6E (rule R194). -/
def execRorAbs (op : Addr) (s : State) : StepResult := .next (modifyInPlace (.mem (.abs op)) shiftRor s)

/-- ROR absx, encoding 0x7E (rule R194). -/
def execRorAbsx (op : Addr) (s : State) : StepResult := .next (modifyInPlace (.mem (.absx op)) shiftRor s)

end Sys2Proof.Machine
end

