-- ==== Sys2Proof/Machine/Stack.lean ====
section
/-! DEFINITION. Stack and flag instructions (43_stack_flags.md rules R200 to R211). -/

namespace Sys2Proof.Machine

/-- PHA imp, encoding 0x48 (rule R201). -/
def execPha (s : State) : StepResult := .next (s.push8 s.a)

/-- PHP imp, encoding 0x08 (rule R202). -/
def execPhp (s : State) : StepResult := .next (s.push8 s.flags.pack)

/-- PLA imp, encoding 0x68 (rule R203). -/
def execPla (s : State) : StepResult := .next ((s.pop8.withA s.popped8).setNZ s.popped8)

/-- PLP imp, encoding 0x28 (rule R204). -/
def execPlp (s : State) : StepResult := .next (s.pop8.withFlags (Flags.unpack s.popped8))

/-- CLC imp, encoding 0x18 (rule R205). -/
def execClc (s : State) : StepResult := .next (s.withFlags { s.flags with c := false })

/-- SEC imp, encoding 0x38 (rule R206). -/
def execSec (s : State) : StepResult := .next (s.withFlags { s.flags with c := true })

/-- CLI imp, encoding 0x58 (rule R207). -/
def execCli (s : State) : StepResult := .next (s.withFlags { s.flags with i := false })

/-- SEI imp, encoding 0x78 (rule R208). -/
def execSei (s : State) : StepResult := .next (s.withFlags { s.flags with i := true })

/-- CLD imp, encoding 0xD8 (rule R209). -/
def execCld (s : State) : StepResult := .next (s.withFlags { s.flags with d := false })

/-- SED imp, encoding 0xF8 (rule R210). -/
def execSed (s : State) : StepResult := .next (s.withFlags { s.flags with d := true })

/-- CLV imp, encoding 0xB8 (rule R211). -/
def execClv (s : State) : StepResult := .next (s.withFlags { s.flags with v := false })

end Sys2Proof.Machine
end

