-- ==== Sys2Proof/Machine/System.lean ====
section
/-! DEFINITION. System instructions: NOP, BRK, RTI (45_system.md rules R240 to R243). -/

namespace Sys2Proof.Machine

/-- BRK (rule R241): skip one more byte, set the live `B`, then the shared interrupt entry. -/
def brk (s : State) : State :=
  let t := s.withPc (s.pc + 1)
  interruptEntry (t.withFlags { t.flags with b := true })

/-- NOP imp, encoding 0xEA (rule R240). -/
def execNop (s : State) : StepResult := .next s

/-- BRK imp, encoding 0x00 (rule R241). -/
def execBrk (s : State) : StepResult := .next (brk s)

/-- RTI imp, encoding 0x40 (rule R242). -/
def execRti (s : State) : StepResult := .next (returnFromInterrupt s)

end Sys2Proof.Machine
end

