-- ==== Sys2Proof/Machine/Dispatch.lean ====
section
/-! DEFINITION. Instruction dispatch: one arm per constructor, each one call of that instruction's meaning. A meaning
runs with `PC` already past the instruction (10_state.md rule R23, log 14). -/

namespace Sys2Proof.Machine

def exec (i : Instr) (s : State) : Host.Outcome State Fault Refusal :=
  match i with
  | .ldaImm op => Sys2Proof.Machine.execLdaImm op s
  | .ldaZp op => Sys2Proof.Machine.execLdaZp op s
  | .ldaZpx op => Sys2Proof.Machine.execLdaZpx op s
  | .ldaAbs op => Sys2Proof.Machine.execLdaAbs op s
  | .ldaAbsx op => Sys2Proof.Machine.execLdaAbsx op s
  | .ldaAbsy op => Sys2Proof.Machine.execLdaAbsy op s
  | .ldaIndx op => Sys2Proof.Machine.execLdaIndx op s
  | .ldaIndy op => Sys2Proof.Machine.execLdaIndy op s
  | .ldxImm op => Sys2Proof.Machine.execLdxImm op s
  | .ldxZp op => Sys2Proof.Machine.execLdxZp op s
  | .ldxZpy op => Sys2Proof.Machine.execLdxZpy op s
  | .ldxAbs op => Sys2Proof.Machine.execLdxAbs op s
  | .ldxAbsy op => Sys2Proof.Machine.execLdxAbsy op s
  | .ldyImm op => Sys2Proof.Machine.execLdyImm op s
  | .ldyZp op => Sys2Proof.Machine.execLdyZp op s
  | .ldyZpx op => Sys2Proof.Machine.execLdyZpx op s
  | .ldyAbs op => Sys2Proof.Machine.execLdyAbs op s
  | .ldyAbsx op => Sys2Proof.Machine.execLdyAbsx op s
  | .staZp op => Sys2Proof.Machine.execStaZp op s
  | .staZpx op => Sys2Proof.Machine.execStaZpx op s
  | .staAbs op => Sys2Proof.Machine.execStaAbs op s
  | .staAbsx op => Sys2Proof.Machine.execStaAbsx op s
  | .staAbsy op => Sys2Proof.Machine.execStaAbsy op s
  | .staIndx op => Sys2Proof.Machine.execStaIndx op s
  | .staIndy op => Sys2Proof.Machine.execStaIndy op s
  | .stxZp op => Sys2Proof.Machine.execStxZp op s
  | .stxZpy op => Sys2Proof.Machine.execStxZpy op s
  | .stxAbs op => Sys2Proof.Machine.execStxAbs op s
  | .styZp op => Sys2Proof.Machine.execStyZp op s
  | .styZpx op => Sys2Proof.Machine.execStyZpx op s
  | .styAbs op => Sys2Proof.Machine.execStyAbs op s
  | .tax => Sys2Proof.Machine.execTax s
  | .tay => Sys2Proof.Machine.execTay s
  | .txa => Sys2Proof.Machine.execTxa s
  | .tya => Sys2Proof.Machine.execTya s
  | .tsx => Sys2Proof.Machine.execTsx s
  | .txs => Sys2Proof.Machine.execTxs s
  | .adcImm op => Sys2Proof.Machine.execAdcImm op s
  | .adcZp op => Sys2Proof.Machine.execAdcZp op s
  | .adcZpx op => Sys2Proof.Machine.execAdcZpx op s
  | .adcAbs op => Sys2Proof.Machine.execAdcAbs op s
  | .adcAbsx op => Sys2Proof.Machine.execAdcAbsx op s
  | .adcAbsy op => Sys2Proof.Machine.execAdcAbsy op s
  | .adcIndx op => Sys2Proof.Machine.execAdcIndx op s
  | .adcIndy op => Sys2Proof.Machine.execAdcIndy op s
  | .sbcImm op => Sys2Proof.Machine.execSbcImm op s
  | .sbcZp op => Sys2Proof.Machine.execSbcZp op s
  | .sbcZpx op => Sys2Proof.Machine.execSbcZpx op s
  | .sbcAbs op => Sys2Proof.Machine.execSbcAbs op s
  | .sbcAbsx op => Sys2Proof.Machine.execSbcAbsx op s
  | .sbcAbsy op => Sys2Proof.Machine.execSbcAbsy op s
  | .sbcIndx op => Sys2Proof.Machine.execSbcIndx op s
  | .sbcIndy op => Sys2Proof.Machine.execSbcIndy op s
  | .andImm op => Sys2Proof.Machine.execAndImm op s
  | .andZp op => Sys2Proof.Machine.execAndZp op s
  | .andZpx op => Sys2Proof.Machine.execAndZpx op s
  | .andAbs op => Sys2Proof.Machine.execAndAbs op s
  | .andAbsx op => Sys2Proof.Machine.execAndAbsx op s
  | .andAbsy op => Sys2Proof.Machine.execAndAbsy op s
  | .andIndx op => Sys2Proof.Machine.execAndIndx op s
  | .andIndy op => Sys2Proof.Machine.execAndIndy op s
  | .oraImm op => Sys2Proof.Machine.execOraImm op s
  | .oraZp op => Sys2Proof.Machine.execOraZp op s
  | .oraZpx op => Sys2Proof.Machine.execOraZpx op s
  | .oraAbs op => Sys2Proof.Machine.execOraAbs op s
  | .oraAbsx op => Sys2Proof.Machine.execOraAbsx op s
  | .oraAbsy op => Sys2Proof.Machine.execOraAbsy op s
  | .oraIndx op => Sys2Proof.Machine.execOraIndx op s
  | .oraIndy op => Sys2Proof.Machine.execOraIndy op s
  | .eorImm op => Sys2Proof.Machine.execEorImm op s
  | .eorZp op => Sys2Proof.Machine.execEorZp op s
  | .eorZpx op => Sys2Proof.Machine.execEorZpx op s
  | .eorAbs op => Sys2Proof.Machine.execEorAbs op s
  | .eorAbsx op => Sys2Proof.Machine.execEorAbsx op s
  | .eorAbsy op => Sys2Proof.Machine.execEorAbsy op s
  | .eorIndx op => Sys2Proof.Machine.execEorIndx op s
  | .eorIndy op => Sys2Proof.Machine.execEorIndy op s
  | .bitZp op => Sys2Proof.Machine.execBitZp op s
  | .bitAbs op => Sys2Proof.Machine.execBitAbs op s
  | .cmpImm op => Sys2Proof.Machine.execCmpImm op s
  | .cmpZp op => Sys2Proof.Machine.execCmpZp op s
  | .cmpZpx op => Sys2Proof.Machine.execCmpZpx op s
  | .cmpAbs op => Sys2Proof.Machine.execCmpAbs op s
  | .cmpAbsx op => Sys2Proof.Machine.execCmpAbsx op s
  | .cmpAbsy op => Sys2Proof.Machine.execCmpAbsy op s
  | .cmpIndx op => Sys2Proof.Machine.execCmpIndx op s
  | .cmpIndy op => Sys2Proof.Machine.execCmpIndy op s
  | .cpxImm op => Sys2Proof.Machine.execCpxImm op s
  | .cpxZp op => Sys2Proof.Machine.execCpxZp op s
  | .cpxAbs op => Sys2Proof.Machine.execCpxAbs op s
  | .cpyImm op => Sys2Proof.Machine.execCpyImm op s
  | .cpyZp op => Sys2Proof.Machine.execCpyZp op s
  | .cpyAbs op => Sys2Proof.Machine.execCpyAbs op s
  | .incZp op => Sys2Proof.Machine.execIncZp op s
  | .incZpx op => Sys2Proof.Machine.execIncZpx op s
  | .incAbs op => Sys2Proof.Machine.execIncAbs op s
  | .incAbsx op => Sys2Proof.Machine.execIncAbsx op s
  | .decZp op => Sys2Proof.Machine.execDecZp op s
  | .decZpx op => Sys2Proof.Machine.execDecZpx op s
  | .decAbs op => Sys2Proof.Machine.execDecAbs op s
  | .decAbsx op => Sys2Proof.Machine.execDecAbsx op s
  | .inx => Sys2Proof.Machine.execInx s
  | .iny => Sys2Proof.Machine.execIny s
  | .dex => Sys2Proof.Machine.execDex s
  | .dey => Sys2Proof.Machine.execDey s
  | .aslAcc => Sys2Proof.Machine.execAslAcc s
  | .aslZp op => Sys2Proof.Machine.execAslZp op s
  | .aslZpx op => Sys2Proof.Machine.execAslZpx op s
  | .aslAbs op => Sys2Proof.Machine.execAslAbs op s
  | .aslAbsx op => Sys2Proof.Machine.execAslAbsx op s
  | .lsrAcc => Sys2Proof.Machine.execLsrAcc s
  | .lsrZp op => Sys2Proof.Machine.execLsrZp op s
  | .lsrZpx op => Sys2Proof.Machine.execLsrZpx op s
  | .lsrAbs op => Sys2Proof.Machine.execLsrAbs op s
  | .lsrAbsx op => Sys2Proof.Machine.execLsrAbsx op s
  | .rolAcc => Sys2Proof.Machine.execRolAcc s
  | .rolZp op => Sys2Proof.Machine.execRolZp op s
  | .rolZpx op => Sys2Proof.Machine.execRolZpx op s
  | .rolAbs op => Sys2Proof.Machine.execRolAbs op s
  | .rolAbsx op => Sys2Proof.Machine.execRolAbsx op s
  | .rorAcc => Sys2Proof.Machine.execRorAcc s
  | .rorZp op => Sys2Proof.Machine.execRorZp op s
  | .rorZpx op => Sys2Proof.Machine.execRorZpx op s
  | .rorAbs op => Sys2Proof.Machine.execRorAbs op s
  | .rorAbsx op => Sys2Proof.Machine.execRorAbsx op s
  | .pha => Sys2Proof.Machine.execPha s
  | .php => Sys2Proof.Machine.execPhp s
  | .pla => Sys2Proof.Machine.execPla s
  | .plp => Sys2Proof.Machine.execPlp s
  | .clc => Sys2Proof.Machine.execClc s
  | .sec => Sys2Proof.Machine.execSec s
  | .cli => Sys2Proof.Machine.execCli s
  | .sei => Sys2Proof.Machine.execSei s
  | .cld => Sys2Proof.Machine.execCld s
  | .sed => Sys2Proof.Machine.execSed s
  | .clv => Sys2Proof.Machine.execClv s
  | .jmpAbs op => Sys2Proof.Machine.execJmpAbs op s
  | .jmpInd op => Sys2Proof.Machine.execJmpInd op s
  | .jsr op => Sys2Proof.Machine.execJsr op s
  | .rts => Sys2Proof.Machine.execRts s
  | .bcc op => Sys2Proof.Machine.execBcc op s
  | .bcs op => Sys2Proof.Machine.execBcs op s
  | .beq op => Sys2Proof.Machine.execBeq op s
  | .bne op => Sys2Proof.Machine.execBne op s
  | .bmi op => Sys2Proof.Machine.execBmi op s
  | .bpl op => Sys2Proof.Machine.execBpl op s
  | .bvc op => Sys2Proof.Machine.execBvc op s
  | .bvs op => Sys2Proof.Machine.execBvs op s
  | .nop => Sys2Proof.Machine.execNop s
  | .brk => Sys2Proof.Machine.execBrk s
  | .rti => Sys2Proof.Machine.execRti s

end Sys2Proof.Machine
end

