-- ==== Sys2Proof/Machine/Fetch.lean ====
section
/-! DEFINITION. Fetching and decoding at the program counter, and what a step does around an instruction
(30_encoding.md rule R94, 60_exceptions.md rule R284). -/

namespace Sys2Proof.Machine

/-- The bytes at the program counter, as many as the longest instruction has, addresses modulo 65536. A read has no
side effect (20_memory.md rule R67), so reading all three is the same as reading only those the mode asks for. -/
def fetchBytes (s : State) : List Byte := [s.memRead s.pc, s.memRead (s.pc + 1), s.memRead (s.pc + 2)]

/-- The instruction at the program counter; none where its first byte has no entry in the table. -/
def fetch (s : State) : Option Instr :=
  match decode (fetchBytes s) with
  | .ok (i, _) => some i
  | .error _ => none

/-- Before the operation: `PC` past the instruction, and the operation-performed event (rule R284). -/
def beginInstr (i : Instr) (s : State) : State :=
  (s.withPc (s.pc + BitVec.ofNat 16 i.length)).emit [.operationPerformed s.pc i]

/-- The instructions that transfer control: those whose rule writes `PC` (44_control_transfer.md, 45_system.md). -/
def isTransfer (i : Instr) : Bool :=
  match i.mnemonic with
  | .jmp | .jsr | .rts | .bcc | .bcs | .beq | .bne | .bmi | .bpl | .bvc | .bvs | .brk | .rti => true
  | _ => false

/-- After the operation: a transfer may have announced its jump, the operation is counted, and the
register-state-changed event is emitted (rule R284). `s` is the state the operation began in, `t` the one it left. -/
def finishInstr (i : Instr) (s t : State) : State :=
  let u := if isTransfer i then announceJump (.instruction i) s t else t
  u.countStep.emit [.registerStateChanged u.snapshot]

/-- The bytes of a list stored at ascending addresses, modulo 65536, with no event: a placement from outside. -/
def placeBytes (m : Memory) (a : Addr) : List Byte → Memory
  | [] => m
  | b :: rest => placeBytes (m.write a.toNat b) (a + 1) rest

end Sys2Proof.Machine
end

