-- ==== Sys2Proof/Machine/Trap.lean ====
section
/-! DEFINITION. Host-routine traps (60_exceptions.md rules R280 to R283): the registry as a map, what a hook does to
the machine, and a trap visit. -/

namespace Sys2Proof.Machine

/-- The routine registered at an address, if there is one: the match is on the exact address (rule R282). -/
def trapAt : TrapTable → Addr → Option Trap
  | [], _ => none
  | (k, t) :: rest, a => if a = k then some t else trapAt rest a

/-- What `TrapTable` maps a routine's address to (rule R280): its execution hook and its end-with pseudo-instruction,
return-from-subroutine by default. -/
def HostRoutine.trap (r : HostRoutine) : Trap := { hook := r.execute, endWith := r.endWith.getD .rts }

/-- Register a routine at an address; a later registration replaces the earlier (rule R280). -/
def trapInsert : TrapTable → Addr → Trap → TrapTable
  | [], a, t => [(a, t)]
  | (k, u) :: rest, a, t =>
    if a.toNat < k.toNat then (a, t) :: (k, u) :: rest
    else if a = k then (a, t) :: rest
    else (k, u) :: trapInsert rest a t

/-- The registry without the routine at an address. -/
def trapErase (t : TrapTable) (a : Addr) : TrapTable := t.filter fun e => e.1 ≠ a

/-- What a hook's effect does to the machine (rule R281): registers and flags as it leaves them, its pokes in order,
each with its memory-changed event. The registry, `opCount`, the listeners and the parameters stay. -/
def applyHook (e : HookEffect) (s : State) : State :=
  ({ s with a := e.a, x := e.x, y := e.y, sp := e.sp, pc := e.pc, flags := e.flags }.memWrites e.pokes).countHook

/-- The end-with pseudo-instruction, performed as the instruction of the same name (rule R283). -/
def performEndWith (e : EndWith) (s : State) : State :=
  match e with
  | .rts => returnFromSubroutine s
  | .rti => returnFromInterrupt s

/-- The state the execution hook leaves at a visit: it has run once, on the state of the visit (rule R282). -/
def afterHook (t : Trap) (s : State) : State :=
  applyHook (Config.hookExecute t.hook s.hookTick s.view) (s.emit (Config.trapEventsBefore s.hookTick s.view))

/-- A trap visit (rule R282): the hook, the end-with instruction, one more operation. Which events it emits besides
those of the hook's pokes is free (log 10). -/
def trapVisit (t : Trap) (s : State) : State :=
  let u := (performEndWith t.endWith (afterHook t s)).countStep
  u.emit (Config.trapEventsAfter s.hookTick s.view u.view)

end Sys2Proof.Machine
end

