-- ==== Sys2Proof/Machine/Step.lean ====
section
/-! DEFINITION. One step of the machine (60_exceptions.md rule R284), and the placement of one instruction where the
next step fetches. -/

namespace Sys2Proof.Machine

/-- `step`: the trap check first; otherwise fetch and decode, or the fatal error of rule R261; then the operation. -/
def step (s : State) : Host.Outcome State Fault Refusal :=
  match trapAt s.trapTable s.pc with
  | some t => .next (trapVisit t s)
  | none =>
    match fetch s with
    | none => .fault (.unmappableOpcode (s.memRead s.pc) s.pc)
    | some i =>
      match exec i (beginInstr i s) with
      | .next t => .next (finishInstr i (beginInstr i s) t)
      | .fault f => .fault f
      | .refused r => .refused r

/-- The state with one instruction, given as a word of the opcode table, stored where the next step fetches it: at
`PC`, which must not be a trap address (log 15). -/
def State.withFetchWord (s : State) (nbits w : Nat) : State :=
  (s.withMem (placeBytes s.mem s.pc (tableBytes nbits w))).withTrapTable (trapErase s.trapTable s.pc)

end Sys2Proof.Machine
end

