-- ==== Sys2Proof/WellFormed.lean ====
section
/-! DEFINITION. What makes an instruction well formed. An `Instr` carries operands of the right width by its type
(rule R91), so the checks speak of the table: the (mnemonic, mode) pair has an encoding byte (rules R92 and R93),
which is also the check a hand-built operation must pass (rules R120 and R263). -/

namespace Sys2Proof

/-- An operation built by hand (the Operation of rule R114 with a concrete operand): any mnemonic with any operand. -/
structure Operation where
  mnemonic : Mnemonic
  operand : Operand
deriving DecidableEq, Repr

/-- The operation's (mnemonic, mode) pair is in the table of rule R92. -/
def Operation.wf (o : Operation) : Bool := supports o.mnemonic o.operand.mode

/-- The operation an instruction is. -/
def Instr.operation (i : Instr) : Operation := ⟨i.mnemonic, i.operand⟩

/-- An instruction is well formed: its pair is in the table, and its operand is one of its mode. -/
def Instr.wf (i : Instr) : Bool := i.operation.wf && i.operand.mode == i.mode

end Sys2Proof
end

