-- ==== Sys2Proof/Machine/Interface.lean ====
section
/-! DEFINITION. The host's interface, used between steps (20_memory.md rule R78, 60_exceptions.md rules R272, R280,
R285, R286, R290; 70_reset_and_hazards.md rule R302), and an operation built by hand (rule R263). -/

namespace Sys2Proof.Machine

/-- `peek(address)`. -/
def peek (s : State) (a : Addr) : Byte := s.memRead a

/-- `poke(address, byte)`. -/
def poke (a : Addr) (v : Byte) (s : State) : State := s.memWrite a v

/-- `readRange(from, to)`: the bytes at ascending addresses from `first`, with or without `last` as
READRANGE_INCLUSIVE says (log 2). -/
def readRange (s : State) (first last : Addr) : List Byte :=
  (List.range (last.toNat + s.cfg.readRangeInclusive.toNat - first.toNat)).map
    fun k => s.memRead (first + BitVec.ofNat 16 k)

/-- The bytes of an image stored from address `k` on. -/
def storeBytes (m : Memory) (k : Nat) : List Byte → Memory
  | [] => m
  | b :: rest => storeBytes (m.write k b) (k + 1) rest

/-- The memory-changed events of an image's bytes stored from address `k` on. -/
def imageEvents (s : State) (k : Nat) : List Byte → List Event
  | [] => []
  | b :: rest => .memoryChanged (BitVec.ofNat 16 k) (s.mem.read k) b :: imageEvents s (k + 1) rest

/-- `loadRawImage(bytes)` of rule R78: a little-endian load address, then the bytes. Too short, or past the end of
memory: refused, and nothing is loaded. `PC` is not set. -/
def loadRawImage (bytes : List Byte) (s : State) : StepResult :=
  match bytes with
  | l :: h :: rest =>
    if (word h l).toNat + rest.length ≤ 65536 then
      .next ((s.withMem (storeBytes s.mem (word h l).toNat rest)).emit
        (if Config.imageLoadEmits s.view then imageEvents s (word h l).toNat rest else []))
    else .refused .imagePastEnd
  | _ => .refused .imageTooShort

/-- `register(address, routine)` of rule R280: the entry (its end-with RTS by default), then the install hook once, if the routine has one. That the
hook comes after the entry is the model's choice; which events it emits besides the memory-changed of its pokes, a
jumped-to where it writes `PC` among them, the spec leaves open (rule R290, N26), and they are a free value (log 7). -/
def register (a : Addr) (r : HostRoutine) (s : State) : State :=
  let u := s.withTrapTable (trapInsert s.trapTable a r.trap)
  match r.onLoad with
  | none => u
  | some h =>
    let v := applyHook (Config.hookOnLoad h u.hookTick u.view) u
    v.emit (Config.onLoadEvents u.hookTick u.view v.view)

/-- Subscribe a listener (rule R290). -/
def subscribe (l : Listener) (s : State) : State := s.addListener l

/-- `requestInterrupt()` of rule R272: the shared entry when `I` is clear, nothing when it is set. -/
def requestInterrupt (s : State) : State :=
  if s.flags.i then s else announceJump .interruptRequest s (interruptEntry s)

/-- The host sets the program counter before it calls `step` (70_reset_and_hazards.md rule R302). -/
def setPc (a : Addr) (s : State) : State := announceJump .hostSetsPc s (s.withPc a)

/-- How a run has ended (rule R286). -/
inductive RunEnd where
  | brk
  | budget
  | fatal (f : Fault)
  | refused (r : Refusal)
deriving DecidableEq, Repr

/-- A run's end, the state it left, and how many steps it made. -/
structure RunResult where
  ended : RunEnd
  state : State
  steps : Nat
deriving DecidableEq, Repr

/-- The loop of rule R285: the test comes before every step, and a fatal error leaves the state before its step. -/
def runLoop : Nat → State → Nat → RunResult
  | 0, s, n => { ended := if s.flags.b then .brk else .budget, state := s, steps := n }
  | fuel + 1, s, n =>
    if s.flags.b then { ended := .brk, state := s, steps := n }
    else
      match step s with
      | .next t => runLoop fuel t (n + 1)
      | .fault f => { ended := .fatal f, state := s, steps := n }
      | .refused r => { ended := .refused r, state := s, steps := n }

/-- `run(startAddress, maxOperationCount)` of rule R285: set `PC`, then the loop. -/
def run (start : Addr) (max : Nat) (s : State) : RunResult :=
  runLoop max (announceJump .runStart s (s.withPc start)) 0

/-- Perform an operation built by hand, at the state as it is: the instruction of that pair, or the fatal error of
rule R263 where the mnemonic does not have that mode. -/
def performOperation (o : Operation) (s : State) : StepResult :=
  match Instr.ofOperand o.mnemonic o.operand with
  | some i => exec i s
  | none => .fault (.unsupportedOperand o.mnemonic o.operand.mode)

/-- What the host can do to a machine between steps. There is no action that writes a register or a flag, `PC` apart:
between two runs the host clears `B` through an install hook or a trap's hook, the model's choice (log 24) between
70_reset_and_hazards.md rule R301, which names the host, and 10_state.md rule R26, which names only PLP, RTI and a
hook. -/
inductive HostAction where
  | poke (a : Addr) (v : Byte)
  | loadRawImage (bytes : List Byte)
  | register (a : Addr) (r : HostRoutine)
  | subscribe (l : Listener)
  | requestInterrupt
  | setPc (a : Addr)
  | step
  | run (start : Addr) (max : Nat)
deriving DecidableEq, Repr

/-- One host action. A run that ends on a break or on its budget leaves a state to go on from. -/
def act (x : HostAction) (s : State) : StepResult :=
  match x with
  | .poke a v => .next (poke a v s)
  | .loadRawImage bytes => loadRawImage bytes s
  | .register a r => .next (register a r s)
  | .subscribe l => .next (subscribe l s)
  | .requestInterrupt => .next (requestInterrupt s)
  | .setPc a => .next (setPc a s)
  | .step => step s
  | .run start max =>
    match (run start max s).ended with
    | .brk => .next (run start max s).state
    | .budget => .next (run start max s).state
    | .fatal f => .fault f
    | .refused r => .refused r

/-- A session: host actions in turn, stopping at the first fatal error or refusal. -/
def session : List HostAction → State → StepResult
  | [], s => .next s
  | x :: rest, s =>
    match act x s with
    | .next t => session rest t
    | .fault f => .fault f
    | .refused r => .refused r

end Sys2Proof.Machine
end

