-- ==== Sys2Proof/Machine/Assembler.lean ====
section
/-! DEFINITION. The encoder's rules that fix bytes (30_encoding.md rules R114 to R120): programs as element sequences,
element addresses, label resolution, the relative displacement with its range, serialisation, the external image,
and disassembly as the inverse that rule R119 speaks of. It is software beside the engine; it runs before a run. -/

namespace Sys2Proof.Machine

/-- A label with the derived transforms plus-N and minus-N (rule R114). -/
inductive LabelRef where
  | label (name : String)
  | plus (r : LabelRef) (n : Nat)
  | minus (r : LabelRef) (n : Nat)
deriving DecidableEq, Repr

/-- An operand that names a label (rule R114): the four virtual modes, and the two byte transforms. -/
inductive VirtualOperand where
  | absolute (r : LabelRef)
  | absoluteX (r : LabelRef)
  | absoluteY (r : LabelRef)
  | relative (r : LabelRef)
  | lowByteOf (r : LabelRef)
  | highByteOf (r : LabelRef)
deriving DecidableEq, Repr

/-- An operand of an element: concrete or virtual. -/
inductive AsmOperand where
  | concrete (o : Operand)
  | virtual (v : VirtualOperand)
deriving DecidableEq, Repr

/-- The elements of a Program (rule R114). A host-routine marker reserves no byte or one. -/
inductive Element where
  | label (name : String)
  | comment (text : String)
  | data (bytes : List Byte)
  | operation (mn : Mnemonic) (o : AsmOperand)
  | hostRoutineMarker (reservesByte : Bool)
deriving DecidableEq, Repr

/-- A Program: a start address and its elements in order (rule R114). -/
structure Program where
  start : Addr
  elements : List Element
deriving DecidableEq, Repr

/-- The encoder's errors (rule R120), and one refusal of the model's own (log 18). -/
inductive AsmError where
  /-- The mnemonic has no byte for that mode. -/
  | encoding (mn : Mnemonic) (mode : Mode)
  /-- A relative-branch distance out of range. -/
  | relativeOutOfRange (distance : Int)
  /-- An operand names a label the Program does not have. -/
  | linkage (name : String)
  /-- A label's address, transformed, is no 16-bit address (log 18). -/
  | addressOutOfRange (address : Int)
deriving DecidableEq, Repr

/-- The mode a virtual operand resolves to (rules R114, R116, R117). -/
def VirtualOperand.mode : VirtualOperand → Mode
  | .absolute _ => .abs
  | .absoluteX _ => .absx
  | .absoluteY _ => .absy
  | .relative _ => .rel
  | .lowByteOf _ => .imm
  | .highByteOf _ => .imm

/-- The mode of an element's operand. -/
def AsmOperand.mode : AsmOperand → Mode
  | .concrete o => o.mode
  | .virtual v => v.mode

/-- The length of an element in bytes (rule R114). -/
def Element.length : Element → Nat
  | .label _ => 0
  | .comment _ => 0
  | .data bytes => bytes.length
  | .operation _ o => 1 + o.mode.width
  | .hostRoutineMarker reservesByte => reservesByte.toNat

/-- The address a label has among elements that start at address `at_`: that of the element after it (rule R115). -/
def labelAddress (name : String) : Nat → List Element → Option Nat
  | _, [] => none
  | at_, e :: rest =>
    if e = .label name then some at_ else labelAddress name (at_ + e.length) rest

/-- `resolveAbsolute(L)` (rule R115); an unknown label is an error (rule R120). -/
def resolveAbsolute (p : Program) (name : String) : Except AsmError Nat :=
  match labelAddress name p.start.toNat p.elements with
  | some address => .ok address
  | none => .error (.linkage name)

/-- A label reference's address, in the integers: the transforms apply after resolution (rule R114). -/
def resolveRef (p : Program) : LabelRef → Except AsmError Int
  | .label name => (resolveAbsolute p name).map fun address => (address : Int)
  | .plus r n => (resolveRef p r).map fun address => address + n
  | .minus r n => (resolveRef p r).map fun address => address - n

/-- An address as a Two-Byte-Address; outside 16 bits there is none (log 18). -/
def toAddress (address : Int) : Except AsmError Addr :=
  if 0 ≤ address ∧ address < 65536 then .ok (BitVec.ofInt 16 address) else .error (.addressOutOfRange address)

/-- The displacement byte of a branch at address `branch` to address `target` (rule R117). The accepted range is
-128 to +128, and +128 is emitted as 0x80. -/
def relativeByte (target branch : Int) : Except AsmError Byte :=
  let d := target - (branch + 2)
  if d < -128 ∨ d > 128 then .error (.relativeOutOfRange d) else .ok (BitVec.ofInt 8 d)

/-- Resolve an operand of the element at address `at_` (rules R116 and R117). -/
def resolveOperand (p : Program) (at_ : Nat) : AsmOperand → Except AsmError Operand
  | .concrete o => .ok o
  | .virtual (.absolute r) => do return .mem (.abs (← toAddress (← resolveRef p r)))
  | .virtual (.absoluteX r) => do return .mem (.absx (← toAddress (← resolveRef p r)))
  | .virtual (.absoluteY r) => do return .mem (.absy (← toAddress (← resolveRef p r)))
  | .virtual (.relative r) => do return .rel (← relativeByte (← resolveRef p r) at_)
  | .virtual (.lowByteOf r) => do return .imm (lo8 (← toAddress (← resolveRef p r)))
  | .virtual (.highByteOf r) => do return .imm (hi8 (← toAddress (← resolveRef p r)))

/-- The bytes of an operation: `encode(mnemonic, mode)` and the operand bytes, low byte first (rules R95, R114). -/
def operationBytes (mn : Mnemonic) (o : Operand) : Except AsmError (List Byte) :=
  match encodeByte mn o.mode with
  | some b => .ok (b :: operandBytes o.mode o.parts.2)
  | none => .error (.encoding mn o.mode)

/-- The bytes of the element at address `at_` (rule R114). A marker's placeholder byte is free (log 19). -/
def elementBytes (p : Program) (at_ : Nat) : Element → Except AsmError (List Byte)
  | .label _ => .ok []
  | .comment _ => .ok []
  | .data bytes => .ok bytes
  | .operation mn o => do operationBytes mn (← resolveOperand p at_ o)
  | .hostRoutineMarker reservesByte => .ok (if reservesByte then [Config.placeholderByte at_] else [])

/-- The bytes of elements that start at address `at_`: each element's address is the one before it plus that one's
length (rule R115). -/
def elementsBytes (p : Program) : Nat → List Element → Except AsmError (List Byte)
  | _, [] => .ok []
  | at_, e :: rest => do
    let bytes ← elementBytes p at_ e
    let more ← elementsBytes p (at_ + e.length) rest
    return bytes ++ more

/-- `compile` (rule R118). -/
def compile (p : Program) : Except AsmError (List Byte) := elementsBytes p p.start.toNat p.elements

/-- The external binary program format (rule R118), the one `loadRawImage` takes. -/
def image (p : Program) : Except AsmError (List Byte) := do
  let bytes ← compile p
  return lo8 p.start :: hi8 p.start :: bytes

/-- What disassembly yields: an instruction, or bytes that are none (30_encoding.md rule R99). -/
inductive Piece where
  | instruction (i : Instr)
  | data (bytes : List Byte)
deriving DecidableEq, Repr

/-- Add a byte in front of the pieces after it: bytes that match no opcode accumulate into one data element. -/
def addDataByte (b : Byte) : List Piece → List Piece
  | .data bytes :: rest => .data (b :: bytes) :: rest
  | pieces => .data [b] :: pieces

/-- Disassemble at most `fuel` pieces: decode an opcode byte, take the mode's operand bytes, and repeat (rule R119);
bytes that match no opcode, and an opcode whose operand bytes are missing (log 20), are data. -/
def disassembleFrom : Nat → List Byte → List Piece
  | 0, _ => []
  | _ + 1, [] => []
  | fuel + 1, b :: rest =>
    match decode (b :: rest) with
    | .ok (i, rest') => .instruction i :: disassembleFrom fuel rest'
    | .error _ => addDataByte b (disassembleFrom fuel rest)

/-- Disassemble an instruction stream. -/
def disassemble (bytes : List Byte) : List Piece := disassembleFrom bytes.length bytes

/-- Disassemble an external image: from offset 2 (rule R119). -/
def disassembleImage (bytes : List Byte) : List Piece := disassemble (bytes.drop 2)

/-- The bytes a piece stands for. -/
def pieceBytes : Piece → List Byte
  | .instruction i => encode i
  | .data bytes => bytes

end Sys2Proof.Machine
end

