-- ==== Sys2Proof/Safety.lean ====
section
/-! DEFINITION. The terms that claims use: the machine's invariant, frames, the addresses an instruction stores to,
and what it means that a step is safe. -/

namespace Sys2Proof.Machine

/-- Every notification went to a subscribed listener that wants the event (60_exceptions.md rule R290). -/
def State.deliveriesOk (s : State) : Prop :=
  ∀ d ∈ s.delivered, d.listener ∈ s.listeners ∧ d.listener.wants d.event = true

/-- The machine's invariant: memory and the registry are in canonical form, and notifications went where they
should. -/
structure State.Inv (s : State) : Prop where
  memory : s.mem.wf = true
  traps : TrapTable.wf s.trapTable = true
  deliveries : s.deliveriesOk

/-- A step is safe from `s`: it answers a next state. -/
def stepsSafely (s : State) : Prop := ∃ t, step s = .next t

/-- `k` steps in a row, stopping at the first that answers no next state. -/
def stepTimes : Nat → State → StepResult
  | 0, s => .next s
  | k + 1, s =>
    match step s with
    | .next t => stepTimes k t
    | .fault f => .fault f
    | .refused r => .refused r

/-- The next state, if there is one. -/
def nextState? : StepResult → Option State
  | .next s => some s
  | .fault _ => none
  | .refused _ => none

/-- The same registers `A`, `X`, `Y`, `SP`. -/
def SameRegisters (s t : State) : Prop := t.a = s.a ∧ t.x = s.x ∧ t.y = s.y ∧ t.sp = s.sp

/-- Every byte of memory reads the same. -/
def SameMemory (s t : State) : Prop := ∀ a : Addr, t.memRead a = s.memRead a

/-- Every byte of memory reads the same outside a list of addresses. -/
def SameMemoryOutside (addrs : List Addr) (s t : State) : Prop := ∀ a : Addr, a ∉ addrs → t.memRead a = s.memRead a

/-- What no instruction touches (10_state.md rules R34 and R35, 00_scope.md rule R6): the registry, the operation
counter, the listeners, the hooks' counter and the parameters. -/
def SameHidden (s t : State) : Prop :=
  t.trapTable = s.trapTable ∧ t.opCount = s.opCount ∧ t.listeners = s.listeners ∧ t.hookTick = s.hookTick ∧
    t.cfg = s.cfg

/-- The stack slot `k` pushes below the top: `STACK_BASE + (SP - k) mod 256` (20_memory.md rules R68, R69). -/
def stackSlot (s : State) (k : Byte) : Addr := s.cfg.stackBase + zext (s.sp - k)

/-- The stack slot the `k`-th byte is popped from: `STACK_BASE + (SP + k) mod 256` (20_memory.md rule R70). -/
def pulledSlot (s : State) (k : Byte) : Addr := s.cfg.stackBase + zext (s.sp + k)

/-- The addresses an instruction stores to, at the state it runs in: the effective address of a store or a
read-modify-write on memory, the stack slots of a push, of JSR and of BRK, and nothing else. -/
def storedAddresses (i : Instr) (s : State) : List Addr :=
  match i.mnemonic with
  | .sta | .stx | .sty | .inc | .dec | .asl | .lsr | .rol | .ror =>
    match i.operand.mem? with
    | some m => [ea m s]
    | none => []
  | .pha | .php => [stackSlot s 0]
  | .jsr => [stackSlot s 0, stackSlot s 1]
  | .brk => [stackSlot s 0, stackSlot s 1, stackSlot s 2]
  | _ => []

end Sys2Proof.Machine
end

