-- ==== Sys2Proof/Certificates/Slice0/Obligations.lean ====
section
/-! DEFINITION. The statements about the model, each from a numbered rule of spec/ or from sections it names, and the few
terms they share. Nothing is proved here. -/

namespace Sys2Proof.Claims

open Sys2Proof.Machine

/-- The flags with `Z` and `N` of a result, as 10_state.md rule R27 says: zero, and the high bit. -/
def nz (f : Flags) (v : Byte) : Flags := { f with z := decide (v = 0), n := decide (128 ≤ v.toNat) }

/-- `t` is `s` with the byte `v` at address `a` and with flags `f`; nothing else differs but the notifications. -/
def StoresByte (s t : State) (a : Addr) (v : Byte) (f : Flags) : Prop :=
  t.memRead a = v ∧ SameMemoryOutside [a] s t ∧
    t = { s with mem := t.mem, flags := f, delivered := t.delivered }

/-- One shift (42_shift_rotate.md rule R190): on the accumulator, or read and written at one address; `value` and
`carry` give the result and the new `C` from the old value and the old `C`. -/
def ShiftClaim (mn : Mnemonic) (value : Byte → Bool → Byte) (carry : Byte → Bool) : Prop :=
  (∀ (i : Instr) (s : State), i.mnemonic = mn → i.operand = .acc →
    exec i s = .next
      { s with a := value s.a s.flags.c, flags := nz { s.flags with c := carry s.a } (value s.a s.flags.c) }) ∧
  (∀ (i : Instr) (m : MemOperand) (s : State), i.mnemonic = mn → i.operand = .mem m →
    ∃ t, exec i s = .next t ∧
      StoresByte s t (ea m s) (value (s.memRead (ea m s)) s.flags.c)
        (nz { s.flags with c := carry (s.memRead (ea m s)) } (value (s.memRead (ea m s)) s.flags.c)))

/-- One conditional branch (44_control_transfer.md rule R224): `PC` is already the address after the branch, the
displacement is signed, and the sum is reduced modulo 65536. -/
def BranchClaim (i : Byte → Instr) (cond : Flags → Bool) : Prop :=
  ∀ (op : Byte) (s : State),
    exec (i op) s = .next
      { s with pc := if cond s.flags then BitVec.ofInt 16 ((s.pc.toNat : Int) + op.toInt) else s.pc }

/-- The bytes of 30_encoding.md rule R97, as it lists them. -/
def unmapped : List Byte :=
  [0x02, 0x03, 0x04, 0x07, 0x0B, 0x0C, 0x0F, 0x12, 0x13, 0x14, 0x17, 0x1A, 0x1B, 0x1C, 0x1F] ++
  [0x22, 0x23, 0x27, 0x2B, 0x2F, 0x32, 0x33, 0x34, 0x37, 0x3A, 0x3B, 0x3C, 0x3F, 0x42, 0x43] ++
  [0x44, 0x47, 0x4B, 0x4F, 0x52, 0x53, 0x54, 0x57, 0x5A, 0x5B, 0x5C, 0x5F, 0x62, 0x63, 0x64] ++
  [0x67, 0x6B, 0x6F, 0x72, 0x73, 0x74, 0x77, 0x7A, 0x7B, 0x7C, 0x7F, 0x80, 0x82, 0x83, 0x87] ++
  [0x89, 0x8B, 0x8F, 0x92, 0x93, 0x97, 0x9B, 0x9C, 0x9E, 0x9F, 0xA3, 0xA7, 0xAB, 0xAF, 0xB2] ++
  [0xB3, 0xB7, 0xBB, 0xBF, 0xC2, 0xC3, 0xC7, 0xCB, 0xCF, 0xD2, 0xD3, 0xD4, 0xD7, 0xDA, 0xDB] ++
  [0xDC, 0xDF, 0xE2, 0xE3, 0xE7, 0xEB, 0xEF, 0xF2, 0xF3, 0xF4, 0xF7, 0xFA, 0xFB, 0xFC, 0xFF]

/-- The mnemonics that read `A` (10_state.md rule R20), in any mode but for the shifts. -/
def readersOfA : List Mnemonic := [.sta, .tax, .tay, .pha, .adc, .sbc, .and, .ora, .eor, .bit, .cmp]

/-- The mnemonics that write `A` (rule R20), in any mode but for the shifts. -/
def writersOfA : List Mnemonic := [.lda, .txa, .tya, .pla, .adc, .sbc, .and, .ora, .eor]

/-- The shifts, which read and write `A` in accumulator mode (rule R20). -/
def shifts : List Mnemonic := [.asl, .lsr, .rol, .ror]

/-- `i` reads `A` (rule R20). -/
def ReadsA (i : Instr) : Prop := i.mnemonic ∈ readersOfA ∨ (i.mnemonic ∈ shifts ∧ i.mode = .acc)

/-- `i` writes `A` (rule R20). -/
def WritesA (i : Instr) : Prop := i.mnemonic ∈ writersOfA ∨ (i.mnemonic ∈ shifts ∧ i.mode = .acc)

/-- `i` reads `X` (rule R20): by its mnemonic or as the index of its mode. -/
def ReadsX (i : Instr) : Prop :=
  i.mnemonic ∈ [Mnemonic.stx, .txa, .txs, .cpx, .inx, .dex] ∨ i.mode ∈ [Mode.zpx, .absx, .indx]

/-- `i` writes `X` (rule R20). -/
def WritesX (i : Instr) : Prop := i.mnemonic ∈ [Mnemonic.ldx, .tax, .tsx, .inx, .dex]

/-- `i` reads `Y` (rule R20): by its mnemonic or as the index of its mode. -/
def ReadsY (i : Instr) : Prop :=
  i.mnemonic ∈ [Mnemonic.sty, .tya, .cpy, .iny, .dey] ∨ i.mode ∈ [Mode.zpy, .absy, .indy]

/-- `i` writes `Y` (rule R20). -/
def WritesY (i : Instr) : Prop := i.mnemonic ∈ [Mnemonic.ldy, .tay, .iny, .dey]

/-- The mnemonics that write `Z`, and `N` with it (10_state.md rule R25). -/
def writersOfZN : List Mnemonic :=
  [.lda, .ldx, .ldy, .tax, .tay, .txa, .tya, .tsx, .pla, .and, .ora, .eor, .adc, .sbc, .inc, .dec,
    .inx, .iny, .dex, .dey, .asl, .lsr, .rol, .ror, .cmp, .cpx, .cpy, .bit, .plp, .rti]

/-- The mnemonics whose rule writes `PC` (10_state.md rule R23). -/
def transfers : List Mnemonic :=
  [.jmp, .jsr, .rts, .rti, .brk, .bcc, .bcs, .beq, .bne, .bmi, .bpl, .bvc, .bvs]

/-- Which instructions read and write one flag, given by `get` and `set` (10_state.md rule R25): one outside `writers`
leaves the flag; and one outside `readers`, run with another value of the flag, answers the same next state, the flag
apart, which then holds the same value if the instruction is one of `writers`, and the other value if it is not. -/
def FlagClaim (get : Flags → Bool) (set : Flags → Bool → Flags) (readers writers : List Mnemonic) : Prop :=
  ∀ (i : Instr) (s : State) (v : Bool), ∃ t, exec i s = .next t ∧
    (i.mnemonic ∉ writers → get t.flags = get s.flags) ∧
    (i.mnemonic ∉ readers → ∃ u, exec i { s with flags := set s.flags v } = .next u ∧
      { u with flags := set u.flags (get t.flags) } = t ∧
      get u.flags = if i.mnemonic ∈ writers then get t.flags else v)

/-- The memory-changed events of bytes stored at `addrs`, in order: the byte before and the byte stored (60_exceptions.md
rule R290), where `t` is the state after the stores that `s` is the state before. -/
def changes (addrs : List Addr) (s t : State) : List Event :=
  addrs.map fun a => .memoryChanged a (s.memRead a) (t.memRead a)

/-- An element that emits nothing or a concrete operation (30_encoding.md rule R119). -/
def PlainElement : Element → Prop
  | .label _ => True
  | .comment _ => True
  | .operation _ (.concrete _) => True
  | _ => False

/-- The operations of a Program, labels and comments ignored (rule R119). -/
def operationsOf : List Element → List Operation
  | [] => []
  | .operation mn (.concrete o) :: rest => ⟨mn, o⟩ :: operationsOf rest
  | _ :: rest => operationsOf rest

end Sys2Proof.Claims

open Sys2Proof Sys2Proof.Machine Sys2Proof.Claims

/-! ### State and reset -/

/-- 10_state.md section 8. Memory reading 0x00 is from the source; the other values are the spec's own decision D5
(log 3). SP is whatever the parameter SP_RESET is. -/
def Obligations.ConstructedMachineState : Prop :=
  ∀ cfg : Config,
    let s := State.construct cfg
    (∀ a, s.memRead a = 0x00) ∧ s.a = 0x00 ∧ s.x = 0x00 ∧ s.y = 0x00 ∧ s.sp = cfg.spReset ∧ s.pc = 0x0000 ∧
    s.flags.pack = 0x20 ∧ s.flags.i = false ∧ s.flags.b = false ∧ (∀ a, trapAt s.trapTable a = none) ∧
    s.opCount = 0 ∧ s.listeners = [] ∧ s.cfg = cfg

/-- The machine's invariant holds of every freshly constructed machine. The invariant is of the model's own
representation (the list form of memory, log 4, and the notifications, log 8); that the registry and the listeners are
empty after construction is the spec's decision D5, taken by the model (log 3). -/
def Obligations.ConstructedMachineSatisfiesInvariant : Prop := ∀ cfg : Config, (State.construct cfg).Inv

/-- 10_state.md rule R29. -/
def Obligations.PackedStatusByte : Prop :=
  ∀ f : Flags,
    f.pack.toNat = f.n.toNat * 128 + f.v.toNat * 64 + 32 + f.b.toNat * 16 + f.d.toNat * 8 + f.i.toNat * 4 +
      f.z.toNat * 2 + f.c.toNat ∧
    f.pack.getLsbD 5 = true ∧
    (f = { c := false, z := false, i := false, d := false, b := false, v := false, n := false } → f.pack = 0x20) ∧
    (∀ s : State, (∃ t, exec .php s = .next t ∧ t.memRead (stackSlot s 0) = s.flags.pack) ∧
      (interruptEntry s).memRead (stackSlot s 2) = s.flags.pack ∧ s.snapshot.p = s.flags.pack)

/-- 10_state.md section 4: loading the status byte, all seven flags and bit 5 ignored (the spec's decision D12). -/
def Obligations.UnpackedStatusByte : Prop :=
  (∀ b : Byte, (Flags.unpack b).pack = b ||| 0x20 ∧
    (Flags.unpack b).n = b.getLsbD 7 ∧ (Flags.unpack b).v = b.getLsbD 6 ∧ (Flags.unpack b).b = b.getLsbD 4 ∧
    (Flags.unpack b).d = b.getLsbD 3 ∧ (Flags.unpack b).i = b.getLsbD 2 ∧ (Flags.unpack b).z = b.getLsbD 1 ∧
    (Flags.unpack b).c = b.getLsbD 0) ∧
  (∀ f : Flags, Flags.unpack f.pack = f)

/-! ### Memory and the stack -/

/-- 00_scope.md rule R9. -/
def Obligations.MemoryReadsAndWrites : Prop :=
  ∀ (s : State) (n : Nat) (v : Byte),
    s.memRead (BitVec.ofNat 16 n) = s.mem.read (n % 65536) ∧
    (s.memRead16 (BitVec.ofNat 16 n)).toNat =
      256 * (s.mem.read ((n + 1) % 65536)).toNat + (s.mem.read (n % 65536)).toNat ∧
    (s.memWrite (BitVec.ofNat 16 n) v).mem.read (n % 65536) = v ∧
    (∀ k, k ≠ n % 65536 → (s.memWrite (BitVec.ofNat 16 n) v).mem.read k = s.mem.read k)

/-- The model's memory (its form is the model's own, log 4) has one list for one content: writes keep the canonical form, and machines whose invariant
holds and whose bytes all read the same have the same list. -/
def Obligations.MemoryIsCanonical : Prop :=
  (∀ (s : State) (a : Addr) (v : Byte), s.mem.wf = true → (s.memWrite a v).mem.wf = true) ∧
  (∀ s t : State, s.Inv → t.Inv → SameMemory s t → s.mem = t.mem)

/-- 20_memory.md rules R69 and R70. -/
def Obligations.PushAndPopOfOneByte : Prop :=
  ∀ (s : State) (v : Byte),
    (s.push8 v).memRead (s.cfg.stackBase + zext s.sp) = v ∧
    SameMemoryOutside [s.cfg.stackBase + zext s.sp] s (s.push8 v) ∧
    s.push8 v = { s with
      mem := (s.push8 v).mem, delivered := (s.push8 v).delivered,
      sp := BitVec.ofInt 8 ((s.sp.toNat : Int) - 1) } ∧
    s.pop8 = { s with sp := BitVec.ofNat 8 (s.sp.toNat + 1) } ∧
    s.popped8 = s.memRead (s.cfg.stackBase + zext (BitVec.ofNat 8 (s.sp.toNat + 1))) ∧
    (∀ w : Byte, ((s.push8 v).push8 w).popped8 = w ∧ ((s.push8 v).push8 w).pop8.popped8 = v ∧
      ((s.push8 v).push8 w).pop8.pop8.sp = s.sp)

/-! ### Effective addresses -/

/-- 30_encoding.md rules R102 to R107: the direct modes, in the integers; the zero-page index sums are not reduced
modulo 256. -/
def Obligations.DirectEffectiveAddresses : Prop :=
  ∀ (b : Byte) (w : Addr) (s : State),
    (ea (.zp b) s).toNat = b.toNat ∧
    (ea (.zpx b) s).toNat = b.toNat + s.x.toNat ∧
    (ea (.zpy b) s).toNat = b.toNat + s.y.toNat ∧
    ea (.abs w) s = w ∧
    (ea (.absx w) s).toNat = (w.toNat + s.x.toNat) % 65536 ∧
    (ea (.absy w) s).toNat = (w.toNat + s.y.toNat) % 65536

/-- 30_encoding.md section 5, the two indirect modes (whose pointer does not wrap in the zero page by the spec's
decision D10), and the 8-bit source value. -/
def Obligations.IndirectEffectiveAddressesAndSources : Prop :=
  ∀ (b : Byte) (m : MemOperand) (s : State),
    (ea (.indx b) s).toNat =
      (s.mem.read (b.toNat + s.x.toNat)).toNat + 256 * (s.mem.read (b.toNat + s.x.toNat + 1)).toNat ∧
    (ea (.indy b) s).toNat =
      ((s.mem.read b.toNat).toNat + 256 * (s.mem.read (b.toNat + 1)).toNat + s.y.toNat) % 65536 ∧
    operand8 (.imm b) s = b ∧ operand8 .acc s = s.a ∧ operand8 (.mem m) s = s.memRead (ea m s)

/-! ### Loads, stores, transfers -/

/-- 40_load_store_transfer.md rules R141, R142, R143. -/
def Obligations.LoadsReadOperandAndSetZeroNegative : Prop :=
  encodings .lda = [(.imm, 0xA9), (.zp, 0xA5), (.zpx, 0xB5), (.abs, 0xAD),
    (.absx, 0xBD), (.absy, 0xB9), (.indx, 0xA1), (.indy, 0xB1)] ∧
  encodings .ldx = [(.imm, 0xA2), (.zp, 0xA6), (.zpy, 0xB6), (.abs, 0xAE), (.absy, 0xBE)] ∧
  encodings .ldy = [(.imm, 0xA0), (.zp, 0xA4), (.zpx, 0xB4), (.abs, 0xAC), (.absx, 0xBC)] ∧
  ∀ (i : Instr) (src : Source) (s : State), i.operand.source? = some src →
    (i.mnemonic = .lda → exec i s = .next { s with a := operand8 src s, flags := nz s.flags (operand8 src s) }) ∧
    (i.mnemonic = .ldx → exec i s = .next { s with x := operand8 src s, flags := nz s.flags (operand8 src s) }) ∧
    (i.mnemonic = .ldy → exec i s = .next { s with y := operand8 src s, flags := nz s.flags (operand8 src s) })

/-- 40_load_store_transfer.md rules R144, R145, R146. -/
def Obligations.StoresWriteOneByteAndNoFlag : Prop :=
  encodings .sta = [(.zp, 0x85), (.zpx, 0x95), (.abs, 0x8D), (.absx, 0x9D),
    (.absy, 0x99), (.indx, 0x81), (.indy, 0x91)] ∧
  encodings .stx = [(.zp, 0x86), (.zpy, 0x96), (.abs, 0x8E)] ∧
  encodings .sty = [(.zp, 0x84), (.zpx, 0x94), (.abs, 0x8C)] ∧
  ∀ (i : Instr) (m : MemOperand) (s : State), i.operand = .mem m →
    (i.mnemonic = .sta → ∃ t, exec i s = .next t ∧ StoresByte s t (ea m s) s.a s.flags) ∧
    (i.mnemonic = .stx → ∃ t, exec i s = .next t ∧ StoresByte s t (ea m s) s.x s.flags) ∧
    (i.mnemonic = .sty → ∃ t, exec i s = .next t ∧ StoresByte s t (ea m s) s.y s.flags)

/-- 40_load_store_transfer.md rules R147 to R152. -/
def Obligations.TransfersMoveAndSetZeroNegative : Prop :=
  encodings .tax = [(.imp, 0xAA)] ∧ encodings .tay = [(.imp, 0xA8)] ∧ encodings .txa = [(.imp, 0x8A)] ∧
  encodings .tya = [(.imp, 0x98)] ∧ encodings .tsx = [(.imp, 0xBA)] ∧ encodings .txs = [(.imp, 0x9A)] ∧
  ∀ s : State,
    exec .tax s = .next { s with x := s.a, flags := nz s.flags s.a } ∧
    exec .tay s = .next { s with y := s.a, flags := nz s.flags s.a } ∧
    exec .txa s = .next { s with a := s.x, flags := nz s.flags s.x } ∧
    exec .tya s = .next { s with a := s.y, flags := nz s.flags s.y } ∧
    exec .tsx s = .next { s with x := s.sp, flags := nz s.flags s.sp } ∧
    exec .txs s = .next { s with sp := s.x }

/-! ### Arithmetic and logic -/

/-- 41_arithmetic_logic.md rule R161. `V` is given by both of the rule's formulas: the signed sum lies outside -128 to
+127, and the test on the bits. -/
def Obligations.AddWithCarry : Prop :=
  encodings .adc = [(.imm, 0x69), (.zp, 0x65), (.zpx, 0x75), (.abs, 0x6D),
    (.absx, 0x7D), (.absy, 0x79), (.indx, 0x61), (.indy, 0x71)] ∧
  ∀ (i : Instr) (src : Source) (s : State), i.mnemonic = .adc → i.operand.source? = some src →
    let m := operand8 src s
    let sum := s.a.toNat + m.toNat + s.flags.c.toNat
    let r : Byte := BitVec.ofNat 8 sum
    let signed : Int := s.a.toInt + m.toInt + s.flags.c.toNat
    exec i s = .next
      { s with
        a := r
        flags := nz { s.flags with
          c := decide (255 < sum), v := decide (signed < -128 ∨ 127 < signed) } r } ∧
    (((s.a ^^^ r) &&& (m ^^^ r) &&& 0x80 ≠ 0) ↔ (signed < -128 ∨ 127 < signed))

/-- 41_arithmetic_logic.md rule R162: the difference, and that SBC is ADC of the complement. -/
def Obligations.SubtractWithBorrow : Prop :=
  encodings .sbc = [(.imm, 0xE9), (.zp, 0xE5), (.zpx, 0xF5), (.abs, 0xED),
    (.absx, 0xFD), (.absy, 0xF9), (.indx, 0xE1), (.indy, 0xF1)] ∧
  (∀ (i : Instr) (src : Source) (s : State), i.mnemonic = .sbc → i.operand.source? = some src →
    let m := operand8 src s
    let diff : Int := (s.a.toNat : Int) - m.toNat - (1 - s.flags.c.toNat)
    let r : Byte := BitVec.ofInt 8 diff
    let signed : Int := s.a.toInt - m.toInt - (1 - s.flags.c.toNat)
    exec i s = .next
      { s with
        a := r
        flags := nz { s.flags with
          c := decide (0 ≤ diff), v := decide (signed < -128 ∨ 127 < signed) } r } ∧
    (((s.a ^^^ m) &&& (s.a ^^^ r) &&& 0x80 ≠ 0) ↔ (signed < -128 ∨ 127 < signed))) ∧
  (∀ (m : Byte) (s : State), exec (.sbcImm m) s = exec (.adcImm (BitVec.ofNat 8 (255 - m.toNat))) s)

/-- 41_arithmetic_logic.md rules R164, R165, R166. -/
def Obligations.LogicWithAccumulator : Prop :=
  encodings .and = [(.imm, 0x29), (.zp, 0x25), (.zpx, 0x35), (.abs, 0x2D),
    (.absx, 0x3D), (.absy, 0x39), (.indx, 0x21), (.indy, 0x31)] ∧
  encodings .ora = [(.imm, 0x09), (.zp, 0x05), (.zpx, 0x15), (.abs, 0x0D),
    (.absx, 0x1D), (.absy, 0x19), (.indx, 0x01), (.indy, 0x11)] ∧
  encodings .eor = [(.imm, 0x49), (.zp, 0x45), (.zpx, 0x55), (.abs, 0x4D),
    (.absx, 0x5D), (.absy, 0x59), (.indx, 0x41), (.indy, 0x51)] ∧
  ∀ (i : Instr) (src : Source) (s : State), i.operand.source? = some src →
    let m := operand8 src s
    (i.mnemonic = .and → exec i s = .next { s with a := s.a &&& m, flags := nz s.flags (s.a &&& m) }) ∧
    (i.mnemonic = .ora → exec i s = .next { s with a := s.a ||| m, flags := nz s.flags (s.a ||| m) }) ∧
    (i.mnemonic = .eor → exec i s = .next { s with a := s.a ^^^ m, flags := nz s.flags (s.a ^^^ m) })

/-- 41_arithmetic_logic.md rule R167. -/
def Obligations.BitTestReadsMemoryBits : Prop :=
  encodings .bit = [(.zp, 0x24), (.abs, 0x2C)] ∧
  ∀ (i : Instr) (m : MemOperand) (s : State), i.mnemonic = .bit → i.operand = .mem m →
    let v := s.memRead (ea m s)
    exec i s = .next
      { s with flags := { s.flags with z := decide (s.a &&& v = 0), n := v.getLsbD 7, v := v.getLsbD 6 } }

/-- 41_arithmetic_logic.md rules R168, R169, R170, and the compare law R178. -/
def Obligations.ComparesSetCarryZeroNegative : Prop :=
  encodings .cmp = [(.imm, 0xC9), (.zp, 0xC5), (.zpx, 0xD5), (.abs, 0xCD),
    (.absx, 0xDD), (.absy, 0xD9), (.indx, 0xC1), (.indy, 0xD1)] ∧
  encodings .cpx = [(.imm, 0xE0), (.zp, 0xE4), (.abs, 0xEC)] ∧
  encodings .cpy = [(.imm, 0xC0), (.zp, 0xC4), (.abs, 0xCC)] ∧
  ∀ (i : Instr) (src : Source) (s : State), i.operand.source? = some src →
    let m := operand8 src s
    let after (r : Byte) : State :=
      { s with flags := { s.flags with
          c := decide (m.toNat ≤ r.toNat), z := decide (r = m),
          n := decide (128 ≤ ((r.toNat : Int) - m.toNat) % 256) } }
    (i.mnemonic = .cmp → exec i s = .next (after s.a)) ∧
    (i.mnemonic = .cpx → exec i s = .next (after s.x)) ∧
    (i.mnemonic = .cpy → exec i s = .next (after s.y))

/-- 41_arithmetic_logic.md rules R171 and R172. -/
def Obligations.MemoryIncrementAndDecrement : Prop :=
  encodings .inc = [(.zp, 0xE6), (.zpx, 0xF6), (.abs, 0xEE), (.absx, 0xFE)] ∧
  encodings .dec = [(.zp, 0xC6), (.zpx, 0xD6), (.abs, 0xCE), (.absx, 0xDE)] ∧
  ∀ (i : Instr) (m : MemOperand) (s : State), i.operand = .mem m →
    let up : Byte := BitVec.ofNat 8 ((s.memRead (ea m s)).toNat + 1)
    let down : Byte := BitVec.ofInt 8 (((s.memRead (ea m s)).toNat : Int) - 1)
    (i.mnemonic = .inc → ∃ t, exec i s = .next t ∧ StoresByte s t (ea m s) up (nz s.flags up)) ∧
    (i.mnemonic = .dec → ∃ t, exec i s = .next t ∧ StoresByte s t (ea m s) down (nz s.flags down))

/-- 41_arithmetic_logic.md rules R173 to R176. -/
def Obligations.IndexIncrementAndDecrement : Prop :=
  encodings .inx = [(.imp, 0xE8)] ∧ encodings .iny = [(.imp, 0xC8)] ∧ encodings .dex = [(.imp, 0xCA)] ∧
  encodings .dey = [(.imp, 0x88)] ∧
  ∀ s : State,
    let up (v : Byte) : Byte := BitVec.ofNat 8 (v.toNat + 1)
    let down (v : Byte) : Byte := BitVec.ofInt 8 ((v.toNat : Int) - 1)
    exec .inx s = .next { s with x := up s.x, flags := nz s.flags (up s.x) } ∧
    exec .iny s = .next { s with y := up s.y, flags := nz s.flags (up s.y) } ∧
    exec .dex s = .next { s with x := down s.x, flags := nz s.flags (down s.x) } ∧
    exec .dey s = .next { s with y := down s.y, flags := nz s.flags (down s.y) }

/-- 41_arithmetic_logic.md rule R163: `D` is stored, set, cleared, pushed and popped, and read by nothing else. -/
def Obligations.DecimalFlagHasNoEffect : Prop :=
  (∀ (i : Instr) (s : State) (d : Bool), i.mnemonic ≠ .php → i.mnemonic ≠ .brk →
    ∃ t, exec i s = .next t ∧
      exec i { s with flags := { s.flags with d := d } } = .next
        (if i.mnemonic ∈ [Mnemonic.sed, .cld, .plp, .rti] then t
         else { t with flags := { t.flags with d := d } })) ∧
  (∀ s : State,
    (∃ t, exec .sed s = .next t ∧ t.flags.d = true) ∧ (∃ t, exec .cld s = .next t ∧ t.flags.d = false) ∧
    (∃ t, exec .php s = .next t ∧ (t.memRead (stackSlot s 0)).getLsbD 3 = s.flags.d) ∧
    (∃ t, exec .brk s = .next t ∧ (t.memRead (stackSlot s 2)).getLsbD 3 = s.flags.d) ∧
    (∃ t, exec .plp s = .next t ∧ t.flags.d = (s.memRead (pulledSlot s 1)).getLsbD 3) ∧
    (∃ t, exec .rti s = .next t ∧ t.flags.d = (s.memRead (pulledSlot s 1)).getLsbD 3))

/-! ### Shifts and rotates -/

/-- 42_shift_rotate.md rules R190 to R194. -/
def Obligations.ShiftsAndRotates : Prop :=
  encodings .asl = [(.acc, 0x0A), (.zp, 0x06), (.zpx, 0x16), (.abs, 0x0E), (.absx, 0x1E)] ∧
  encodings .lsr = [(.acc, 0x4A), (.zp, 0x46), (.zpx, 0x56), (.abs, 0x4E), (.absx, 0x5E)] ∧
  encodings .rol = [(.acc, 0x2A), (.zp, 0x26), (.zpx, 0x36), (.abs, 0x2E), (.absx, 0x3E)] ∧
  encodings .ror = [(.acc, 0x6A), (.zp, 0x66), (.zpx, 0x76), (.abs, 0x6E), (.absx, 0x7E)] ∧
  ShiftClaim .asl (fun old _ => BitVec.ofNat 8 (old.toNat * 2)) (fun old => old.getLsbD 7) ∧
  ShiftClaim .lsr (fun old _ => BitVec.ofNat 8 (old.toNat / 2)) (fun old => old.getLsbD 0) ∧
  ShiftClaim .rol (fun old c => BitVec.ofNat 8 (old.toNat * 2 + c.toNat)) (fun old => old.getLsbD 7) ∧
  ShiftClaim .ror (fun old c => BitVec.ofNat 8 (old.toNat / 2 + c.toNat * 128)) (fun old => old.getLsbD 0)

/-! ### Stack and flag instructions -/

/-- 43_stack_flags.md rules R201 and R203. -/
def Obligations.PushAndPullAccumulator : Prop :=
  encodings .pha = [(.imp, 0x48)] ∧ encodings .pla = [(.imp, 0x68)] ∧
  ∀ s : State,
    (∃ t, exec .pha s = .next t ∧ t.memRead (stackSlot s 0) = s.a ∧ SameMemoryOutside [stackSlot s 0] s t ∧
      t = { s with mem := t.mem, delivered := t.delivered, sp := s.sp - 1 }) ∧
    (let v := s.memRead (pulledSlot s 1)
     exec .pla s = .next { s with a := v, sp := s.sp + 1, flags := nz s.flags v })

/-- 43_stack_flags.md section of PHP and PLP: bit 4 is the live `B` and all seven flags are loaded, by the spec's
decision D12. -/
def Obligations.PushAndPullStatus : Prop :=
  encodings .php = [(.imp, 0x08)] ∧ encodings .plp = [(.imp, 0x28)] ∧
  ∀ s : State,
    (∃ t, exec .php s = .next t ∧ t.memRead (stackSlot s 0) = s.flags.pack ∧
      SameMemoryOutside [stackSlot s 0] s t ∧
      t = { s with mem := t.mem, delivered := t.delivered, sp := s.sp - 1 }) ∧
    (∃ t, exec .plp s = .next t ∧ t.flags.pack = s.memRead (pulledSlot s 1) ||| 0x20 ∧
      t = { s with sp := s.sp + 1, flags := t.flags })

/-- 43_stack_flags.md rules R205 to R211, with the effect of CLI and SEI on an interrupt request. -/
def Obligations.FlagInstructionsWriteOneFlag : Prop :=
  encodings .clc = [(.imp, 0x18)] ∧ encodings .sec = [(.imp, 0x38)] ∧ encodings .cli = [(.imp, 0x58)] ∧
  encodings .sei = [(.imp, 0x78)] ∧ encodings .cld = [(.imp, 0xD8)] ∧ encodings .sed = [(.imp, 0xF8)] ∧
  encodings .clv = [(.imp, 0xB8)] ∧
  ∀ s : State,
    exec .clc s = .next { s with flags := { s.flags with c := false } } ∧
    exec .sec s = .next { s with flags := { s.flags with c := true } } ∧
    exec .cli s = .next { s with flags := { s.flags with i := false } } ∧
    exec .sei s = .next { s with flags := { s.flags with i := true } } ∧
    exec .cld s = .next { s with flags := { s.flags with d := false } } ∧
    exec .sed s = .next { s with flags := { s.flags with d := true } } ∧
    exec .clv s = .next { s with flags := { s.flags with v := false } } ∧
    (∀ t, exec .cli s = .next t → (requestInterrupt t).flags.i = true ∧ (requestInterrupt t).sp = t.sp - 3) ∧
    (∀ t, exec .sei s = .next t → requestInterrupt t = t ∧ ∃ u, exec .brk t = .next u ∧ u.sp = t.sp - 3)

/-! ### Control transfer -/

/-- 44_control_transfer.md rule R221. -/
def Obligations.JumpsLoadPc : Prop :=
  encodings .jmp = [(.abs, 0x4C), (.ind, 0x6C)] ∧
  ∀ (op : Addr) (s : State),
    exec (.jmpAbs op) s = .next { s with pc := op } ∧
    exec (.jmpInd op) s = .next { s with pc := word (s.mem.read ((op.toNat + 1) % 65536)) (s.mem.read op.toNat) }

/-- 44_control_transfer.md rule R222, for every value of RETURN_BIAS. -/
def Obligations.JumpToSubroutinePushesReturnAddress : Prop :=
  encodings .jsr = [(.abs, 0x20)] ∧
  ∀ (op : Addr) (s : State),
    let ret := s.pc - s.cfg.returnBias
    ∃ t, exec (.jsr op) s = .next t ∧
      t.memRead (stackSlot s 0) = hi8 ret ∧ t.memRead (stackSlot s 1) = lo8 ret ∧
      SameMemoryOutside [stackSlot s 0, stackSlot s 1] s t ∧
      t = { s with mem := t.mem, delivered := t.delivered, sp := s.sp - 2, pc := op }

/-- 44_control_transfer.md rule R223, for every value of RETURN_BIAS. -/
def Obligations.ReturnFromSubroutinePopsAddress : Prop :=
  encodings .rts = [(.imp, 0x60)] ∧
  ∀ s : State,
    let l := s.memRead (pulledSlot s 1)
    let h := s.memRead (pulledSlot s 2)
    exec .rts s = .next { s with
      sp := s.sp + 2, pc := BitVec.ofNat 16 (h.toNat * 256 + l.toNat + s.cfg.returnBias.toNat) }

/-- 44_control_transfer.md rules R224 to R232. -/
def Obligations.BranchesTestOneFlag : Prop :=
  encodings .bcc = [(.rel, 0x90)] ∧ encodings .bcs = [(.rel, 0xB0)] ∧ encodings .beq = [(.rel, 0xF0)] ∧
  encodings .bne = [(.rel, 0xD0)] ∧ encodings .bmi = [(.rel, 0x30)] ∧ encodings .bpl = [(.rel, 0x10)] ∧
  encodings .bvc = [(.rel, 0x50)] ∧ encodings .bvs = [(.rel, 0x70)] ∧
  BranchClaim .bcc (fun f => !f.c) ∧ BranchClaim .bcs (fun f => f.c) ∧
  BranchClaim .beq (fun f => f.z) ∧ BranchClaim .bne (fun f => !f.z) ∧
  BranchClaim .bmi (fun f => f.n) ∧ BranchClaim .bpl (fun f => !f.n) ∧
  BranchClaim .bvc (fun f => !f.v) ∧ BranchClaim .bvs (fun f => f.v)

/-- What JSR pushed, RTS takes back: whatever ran in between, if it left the stack pointer and the two slots as they
were, execution goes on after the JSR; for every value of RETURN_BIAS. -/
def Obligations.SubroutineRoundTrip : Prop :=
  ∀ (op : Addr) (s t u : State), exec (.jsr op) s = .next t → u.cfg = s.cfg → u.sp = t.sp →
    u.memRead (stackSlot s 0) = t.memRead (stackSlot s 0) → u.memRead (stackSlot s 1) = t.memRead (stackSlot s 1) →
    exec .rts u = .next { u with sp := s.sp, pc := s.pc }

/-! ### System instructions, interrupts -/

/-- 45_system.md section of NOP, also at the step. -/
def Obligations.NopOnlyAdvances : Prop :=
  encodings .nop = [(.imp, 0xEA)] ∧
  (∀ s : State, exec .nop s = .next s) ∧
  (∀ s : State, trapAt s.trapTable s.pc = none → s.memRead s.pc = 0xEA →
    ∃ t, step s = .next t ∧
      t = { s with pc := s.pc + 1, opCount := s.opCount + 1, delivered := t.delivered })

/-- 45_system.md section of BRK. That BRK sets the live `B` before the entry sequence, and the order of the pushes,
are the spec's decision D11. -/
def Obligations.BreakEntersThroughBrkVector : Prop :=
  encodings .brk = [(.imp, 0x00)] ∧
  ∀ s : State, ∃ t, exec .brk s = .next t ∧
    t.memRead (stackSlot s 0) = hi8 (s.pc + 1) ∧ t.memRead (stackSlot s 1) = lo8 (s.pc + 1) ∧
    t.memRead (stackSlot s 2) = Flags.pack { s.flags with b := true } ∧
    SameMemoryOutside [stackSlot s 0, stackSlot s 1, stackSlot s 2] s t ∧
    t = { s with
      mem := t.mem, delivered := t.delivered, sp := s.sp - 3, flags := { s.flags with b := true, i := true },
      pc := t.memRead16 s.cfg.vecBrk }

/-- 45_system.md rule R242. -/
def Obligations.ReturnFromInterruptRestoresFlagsAndPc : Prop :=
  encodings .rti = [(.imp, 0x40)] ∧
  ∀ s : State,
    let p := s.memRead (pulledSlot s 1)
    let l := s.memRead (pulledSlot s 2)
    let h := s.memRead (pulledSlot s 3)
    exec .rti s = .next { s with
      sp := s.sp + 3
      flags := { n := p.getLsbD 7, v := p.getLsbD 6, b := p.getLsbD 4, d := p.getLsbD 3, i := p.getLsbD 2,
                 z := p.getLsbD 1, c := p.getLsbD 0 }
      pc := word h l }

/-- 60_exceptions.md section 2: the host's request is dropped while `I` is set (the spec's decision D13), and
otherwise is the entry sequence (order: the spec's decision D11), through the vector the live `B` chooses. -/
def Obligations.InterruptRequestEntersOrIsDropped : Prop :=
  ∀ s : State,
    (s.flags.i = true → requestInterrupt s = s) ∧
    (s.flags.i = false →
      let t := requestInterrupt s
      t.memRead (stackSlot s 0) = hi8 s.pc ∧ t.memRead (stackSlot s 1) = lo8 s.pc ∧
      t.memRead (stackSlot s 2) = s.flags.pack ∧
      SameMemoryOutside [stackSlot s 0, stackSlot s 1, stackSlot s 2] s t ∧
      t = { s with
        mem := t.mem, delivered := t.delivered, sp := s.sp - 3, flags := { s.flags with i := true },
        pc := t.memRead16 (if s.flags.b then s.cfg.vecBrk else s.cfg.vecIrq) })

/-- The interrupt round trip: whatever the handler did, if it left the stack pointer and the three slots as the
request left them, RTI resumes where the machine left off, with the flags of before the request. -/
def Obligations.InterruptRoundTrip : Prop :=
  ∀ s u : State, s.flags.i = false → u.cfg = s.cfg → u.sp = (requestInterrupt s).sp →
    (∀ k ∈ [(0 : Byte), 1, 2], u.memRead (stackSlot s k) = (requestInterrupt s).memRead (stackSlot s k)) →
    exec .rti u = .next { u with sp := s.sp, flags := s.flags, pc := s.pc }

/-! ### Encoding -/

/-- A few words written out from 30_encoding.md rules R90, R92 and R95. -/
def Obligations.SampleWordsDecode : Prop :=
  decode [0xA9, 0xFF] = .ok (.ldaImm 0xFF, []) ∧
  decode [0x8D, 0x00, 0x20] = .ok (.staAbs 0x2000, []) ∧
  decode [0xB6, 0x10, 0xEA] = .ok (.ldxZpy 0x10, [0xEA]) ∧
  decode [0x7D, 0x0F, 0x10] = .ok (.adcAbsx 0x100F, []) ∧
  decode [0x2A] = .ok (.rolAcc, []) ∧
  decode [0x68] = .ok (.pla, []) ∧
  decode [0x6C, 0x14, 0x03] = .ok (.jmpInd 0x0314, []) ∧
  decode [0xD0, 0xFB] = .ok (.bne 0xFB, []) ∧
  decode [0x00] = .ok (.brk, []) ∧
  decode [0x89, 0x01] = .error (.unmappableOpcode 0x89)

/-- 30_encoding.md rule R93: the two tables are inverses of each other, and `supports` is having an entry. -/
def Obligations.EncodeAndDecodeTablesAreInverse : Prop :=
  (∀ (mn : Mnemonic) (mode : Mode) (b : Byte), encodeByte mn mode = some b ↔ decodeByte b = some (mn, mode)) ∧
  (∀ (mn : Mnemonic) (mode : Mode), supports mn mode = true ↔ ∃ b, decodeByte b = some (mn, mode)) ∧
  (∀ mn : Mnemonic, ((encodings mn).map Prod.fst).Nodup)

/-- Decoding an encoded instruction gives it back, whatever bytes follow it, for every instruction and operand. -/
def Obligations.DecodeOfEncode : Prop :=
  ∀ (i : Instr) (rest : List Byte), i.wf = true ∧ decode (encode i ++ rest) = .ok (i, rest)

/-- Each word has one meaning: bytes that decode are the encoding of what they decode to. -/
def Obligations.EncodeOfDecode : Prop :=
  ∀ (bs : List Byte) (i : Instr) (rest : List Byte), decode bs = .ok (i, rest) → bs = encode i ++ rest

/-- 30_encoding.md rule R97. -/
def Obligations.UnmappedBytesAreFatal : Prop :=
  unmapped.length = 105 ∧
  (∀ b : Byte, decodeByte b = none ↔ b ∈ unmapped) ∧
  (∀ s : State, trapAt s.trapTable s.pc = none → s.memRead s.pc ∈ unmapped →
    step s = .fault (.unmappableOpcode (s.memRead s.pc) s.pc))

/-! ### The step -/

/-- 60_exceptions.md rule R284, the path of an instruction: `PC` past it, the operation, one more operation counted.
Events apart, the step adds nothing else to `exec`. -/
def Obligations.StepRunsDecodedInstruction : Prop :=
  ∀ (s : State) (i : Instr) (rest : List Byte), trapAt s.trapTable s.pc = none →
    decode [s.memRead s.pc, s.memRead (s.pc + 1), s.memRead (s.pc + 2)] = .ok (i, rest) →
    let u : State := { s with
      pc := s.pc + BitVec.ofNat 16 i.length
      delivered := s.delivered ++ notifications s.listeners [.operationPerformed s.pc i] }
    (∀ t, exec i u = .next t →
      ∃ w, step s = .next w ∧ w = { t with opCount := t.opCount + 1, delivered := w.delivered }) ∧
    (∀ f, exec i u = .fault f → step s = .fault f) ∧
    (∀ r, exec i u = .refused r → step s = .refused r)

/-- 60_exceptions.md section 1 and R273: the one fatal error a step can raise, exactly when it raises it, and that a
step never refuses. -/
def Obligations.OnlyUnmappedOpcodesAreFatal : Prop :=
  ∀ s : State,
    (∀ f, step s = .fault f ↔
      trapAt s.trapTable s.pc = none ∧ decodeByte (s.memRead s.pc) = none ∧
        f = .unmappableOpcode (s.memRead s.pc) s.pc) ∧
    (∀ r, step s ≠ .refused r) ∧
    (∀ i, ∃ t, exec i s = .next t)

/-- 20_memory.md rule R76: a store, wherever it lands, is what the very next fetch reads. -/
def Obligations.StoreIsSeenByNextFetch : Prop :=
  ∀ (s u : State) (a : Addr) (v : Byte), u.mem = (s.memWrite a v).mem →
    let now (k : Addr) : Byte := if u.pc + k = a then v else s.memRead (u.pc + k)
    fetch u = (decode [now 0, now 1, now 2]).toOption.map Prod.fst

/-- 60_exceptions.md rules R282 and R283. The hook's effect is a free value (log 5). -/
def Obligations.TrapVisitRunsHookThenEndWith : Prop :=
  ∀ (s : State) (t : Trap), trapAt s.trapTable s.pc = some t →
    let e := Config.hookExecute t.hook s.hookTick s.view
    let h := afterHook t s
    h.a = e.a ∧ h.x = e.x ∧ h.y = e.y ∧ h.sp = e.sp ∧ h.pc = e.pc ∧ h.flags = e.flags ∧
    h.mem = e.pokes.foldl (fun m p => m.write p.1.toNat p.2) s.mem ∧
    ∃ u w, exec (match t.endWith with | .rts => .rts | .rti => .rti) h = .next u ∧ step s = .next w ∧
      w = { u with opCount := h.opCount + 1, delivered := w.delivered }

/-- 60_exceptions.md section 3: registration. The entry is the execution hook and the end-with pseudo-instruction,
return-from-subroutine for a routine that names none. That a later one replaces the earlier is the spec's decision D16. That an
install hook (`onLoad`) runs after the entry is in the registry, and changes neither the registry nor `opCount`, is the
model's choice (log 7): D16 and rule R281 forbid such changes to hooks during a run. -/
def Obligations.RegistrationAddsOneTrap : Prop :=
  ∀ (s : State) (a b : Addr) (r : HostRoutine),
    let entry : Trap := ⟨r.execute, match r.endWith with | some e => e | none => .rts⟩
    trapAt (register a r s).trapTable b = (if b = a then some entry else trapAt s.trapTable b) ∧
    (register a r s).opCount = s.opCount ∧
    (r.onLoad = none → register a r s = { s with trapTable := (register a r s).trapTable })

/-- 10_state.md section 7: every completed step counts one operation, and leaves the registry, the listeners and the
parameters; a hook is invoked once at a trap visit and never otherwise. That trap visits count, and a fatal step does
not, is the spec's decision D14; that a hook changes neither registry nor
`opCount` is its decision D16, and that it subscribes no listener is the model's choice (log 6). The counter of hooks is
the model's own (log 5). -/
def Obligations.StepCountsAndKeepsHiddenState : Prop :=
  ∀ s t : State, step s = .next t →
    t.opCount = s.opCount + 1 ∧ t.trapTable = s.trapTable ∧ t.listeners = s.listeners ∧ t.cfg = s.cfg ∧
    t.hookTick = s.hookTick + (if (trapAt s.trapTable s.pc).isSome then 1 else 0)

/-! ### What instructions leave alone -/

/-- 10_state.md rule R20: which instructions write `A`, `X`, `Y`, and which read them. An instruction that does not
read a register does the same whatever the register holds. -/
def Obligations.RegisterReadersAndWriters : Prop :=
  ∀ (i : Instr) (s : State) (v : Byte), ∃ t, exec i s = .next t ∧
    (¬ WritesA i → t.a = s.a) ∧ (¬ WritesX i → t.x = s.x) ∧ (¬ WritesY i → t.y = s.y) ∧
    (¬ ReadsA i → ∃ u, exec i { s with a := v } = .next u ∧ { u with a := t.a } = t ∧ (WritesA i → u.a = t.a)) ∧
    (¬ ReadsX i → ∃ u, exec i { s with x := v } = .next u ∧ { u with x := t.x } = t ∧ (WritesX i → u.x = t.x)) ∧
    (¬ ReadsY i → ∃ u, exec i { s with y := v } = .next u ∧ { u with y := t.y } = t ∧ (WritesY i → u.y = t.y))

/-- 10_state.md sections 1 and 3: which instructions write `SP`, and which write each flag. -/
def Obligations.FlagAndStackPointerWriters : Prop :=
  ∀ (i : Instr) (s t : State), exec i s = .next t →
    (i.mnemonic ∉ [Mnemonic.txs, .pha, .php, .pla, .plp, .jsr, .rts, .brk, .rti] → t.sp = s.sp) ∧
    (i.mnemonic ∉ [Mnemonic.adc, .sbc, .cmp, .cpx, .cpy, .asl, .lsr, .rol, .ror, .clc, .sec, .plp, .rti] →
      t.flags.c = s.flags.c) ∧
    (i.mnemonic ∉ writersOfZN → t.flags.z = s.flags.z ∧ t.flags.n = s.flags.n) ∧
    (i.mnemonic ∉ [Mnemonic.sei, .cli, .brk, .plp, .rti] → t.flags.i = s.flags.i) ∧
    (i.mnemonic ∉ [Mnemonic.sed, .cld, .plp, .rti] → t.flags.d = s.flags.d) ∧
    (i.mnemonic ∉ [Mnemonic.brk, .plp, .rti] → t.flags.b = s.flags.b) ∧
    (i.mnemonic ∉ [Mnemonic.adc, .sbc, .bit, .clv, .plp, .rti] → t.flags.v = s.flags.v)

/-- 10_state.md section 3: which instructions read each flag (interrupt entry being BRK's, among instructions). One
that does not read a flag does the same whatever the flag holds: one that writes the flag writes the same value, and one
that does not leaves it. (`D` is in DecimalFlagHasNoEffect.) -/
def Obligations.FlagReaders : Prop :=
  FlagClaim (fun f => f.c) (fun f v => { f with c := v }) [.adc, .sbc, .rol, .ror, .bcc, .bcs, .php, .brk]
    [.adc, .sbc, .cmp, .cpx, .cpy, .asl, .lsr, .rol, .ror, .clc, .sec, .plp, .rti] ∧
  FlagClaim (fun f => f.z) (fun f v => { f with z := v }) [.beq, .bne, .php, .brk] writersOfZN ∧
  FlagClaim (fun f => f.i) (fun f v => { f with i := v }) [.php, .brk] [.sei, .cli, .brk, .plp, .rti] ∧
  FlagClaim (fun f => f.b) (fun f v => { f with b := v }) [.php, .brk] [.brk, .plp, .rti] ∧
  FlagClaim (fun f => f.v) (fun f v => { f with v := v }) [.bvc, .bvs, .php, .brk] [.adc, .sbc, .bit, .clv, .plp, .rti] ∧
  FlagClaim (fun f => f.n) (fun f v => { f with n := v }) [.bmi, .bpl, .php, .brk] writersOfZN

/-- 20_memory.md sections 3 and 4: every byte of memory is unchanged but those the instruction stores to, whose
addresses are computed from the state it runs in; and no instruction touches what a program cannot read. -/
def Obligations.InstructionsStoreOnlyWhereTheySay : Prop :=
  ∀ (i : Instr) (s t : State), exec i s = .next t →
    SameMemoryOutside (storedAddresses i s) s t ∧ SameHidden s t ∧
    (storedAddresses i s = [] → t.mem = s.mem ∧ t.delivered = s.delivered)

/-- 10_state.md section 7: the registry and the operation counter cannot be read by an instruction. The counter of hooks
is the model's own field (log 5), and no instruction reads it either. -/
def Obligations.HiddenStateIsUnreadable : Prop :=
  ∀ (i : Instr) (s t : State) (n k : Nat) (table : TrapTable), exec i s = .next t →
    exec i { s with opCount := n, trapTable := table, hookTick := k } =
      .next { t with opCount := n, trapTable := table, hookTick := k }

/-- 10_state.md section 2: after a step of an instruction that is no transfer, `PC` is its address plus its length,
modulo 65536. -/
def Obligations.NonTransfersAdvancePc : Prop :=
  ∀ (s t : State) (i : Instr), trapAt s.trapTable s.pc = none → fetch s = some i → i.mnemonic ∉ transfers →
    step s = .next t → t.pc.toNat = (s.pc.toNat + i.length) % 65536

/-! ### Invariants -/

/-- The machine's invariant (canonical forms and notifications: the model's own, logs 4, 6 and 8) is kept by every step,
from every state that has it, whatever hooks do. -/
def Obligations.StepKeepsInvariant : Prop := ∀ s t : State, s.Inv → step s = .next t → t.Inv

/-- The machine's invariant (the model's own, logs 4, 6 and 8) is kept by every session of host actions, runs included. -/
def Obligations.SessionsKeepInvariant : Prop :=
  ∀ (xs : List HostAction) (s t : State), s.Inv → session xs s = .next t → t.Inv

/-! ### Runs and the host's interface -/

/-- 60_exceptions.md section 4: a run is its steps from the start address, each made with `B` clear, and it ends in
exactly one of three ways; it counts its steps; and where it has ended on a break, its last step was a BRK, PLP or RTI,
or a trap visit. That `B` is tested before every step, and what is counted, are the spec's decision D14; that hooks keep
`opCount` is its decision D16; that a hook always returns, so that a visit is a step like another, is the model's choice
(log 6). -/
def Obligations.RunEndsInOneOfThreeWays : Prop :=
  ∀ (start : Addr) (max : Nat) (s : State),
    let r := run start max s
    ∃ s₀ : State, s₀ = { s with pc := start, delivered := s₀.delivered } ∧
      stepTimes r.steps s₀ = .next r.state ∧
      (∀ k, k < r.steps → ∃ u : State, stepTimes k s₀ = .next u ∧ u.flags.b = false) ∧
      r.state.opCount = s.opCount + r.steps ∧
      ((r.ended = .brk ∧ r.state.flags.b = true ∧ r.steps ≤ max) ∨
       (r.ended = .budget ∧ r.state.flags.b = false ∧ r.steps = max) ∨
       (∃ f, r.ended = .fatal f ∧ step r.state = .fault f ∧ r.state.flags.b = false ∧ r.steps < max)) ∧
      (s.flags.b = true ∨ max = 0 → r.steps = 0 ∧ r.state = s₀) ∧
      (∀ n, r.ended = .brk → r.steps = n + 1 → ∃ u : State, stepTimes n s₀ = .next u ∧ step u = .next r.state ∧
        ((trapAt u.trapTable u.pc).isSome = true ∨
          ∃ i, fetch u = some i ∧ i.mnemonic ∈ [Mnemonic.brk, .plp, .rti]))

/-- 20_memory.md section 7: the host's memory operations. The image's refusals are the spec's decision D22; the bound
of `readRange` is the parameter READRANGE_INCLUSIVE. -/
def Obligations.HostMemoryOperations : Prop :=
  ∀ s : State,
    (∀ a, peek s a = s.memRead a) ∧
    (∀ a v, StoresByte s (poke a v s) a v s.flags) ∧
    (∀ (l h : Byte) (rest : List Byte),
      let base := l.toNat + 256 * h.toNat
      (base + rest.length ≤ 65536 → ∃ t, loadRawImage (l :: h :: rest) s = .next t ∧
        (∀ k (hk : k < rest.length), t.mem.read (base + k) = rest[k]) ∧
        (∀ a, a < base ∨ base + rest.length ≤ a → t.mem.read a = s.mem.read a) ∧
        t = { s with mem := t.mem, delivered := t.delivered }) ∧
      (65536 < base + rest.length → loadRawImage (l :: h :: rest) s = .refused .imagePastEnd)) ∧
    (∀ bytes : List Byte, bytes.length < 2 → loadRawImage bytes s = .refused .imageTooShort) ∧
    (∀ a b : Addr, a.toNat ≤ b.toNat →
      (readRange s a b).length = b.toNat - a.toNat + s.cfg.readRangeInclusive.toNat ∧
      ∀ k (hk : k < (readRange s a b).length), (readRange s a b)[k] = s.mem.read (a.toNat + k))

/-- 60_exceptions.md section 5: the events of a step that runs an instruction, in order: operation-performed, a
memory-changed for each byte the instruction stores, with its address, the byte before and the byte stored, jumped-to
where a transfer announces its jump, register-state-changed; each is notified to every listener that wants it, in
registration order. That a store of the engine emits memory-changed is the spec's decision D23 (log 12); whether a
transfer announces its jump is a free value, and where jumped-to stands among the events is the model's choice
(log 9). -/
def Obligations.EventsOfAnInstructionStep : Prop :=
  (∀ (ls : List Listener) (e : Event) (es : List Event),
    notifications ls (e :: es) =
      ((ls.filter fun l => l.wants e).map fun l => (⟨l, e⟩ : Delivery)) ++ notifications ls es) ∧
  (∀ (s : State) (a : Addr) (v : Byte),
    (s.memWrite a v).delivered = s.delivered ++ notifications s.listeners [.memoryChanged a (s.memRead a) v]) ∧
  (∀ (i : Instr) (s : State), ∃ t, exec i s = .next t ∧
    t.delivered = s.delivered ++ notifications s.listeners (changes (storedAddresses i s) s t)) ∧
  (∀ (s : State) (i : Instr), trapAt s.trapTable s.pc = none → fetch s = some i →
    ∃ (w : State) (jump : List Event), step s = .next w ∧
      w.delivered = s.delivered ++ notifications s.listeners
        (.operationPerformed s.pc i :: (changes (storedAddresses i (beginInstr i s)) (beginInstr i s) w ++
          (jump ++ [.registerStateChanged w.snapshot]))) ∧
      (jump = [] ∨ (i.mnemonic ∈ transfers ∧ jump = [.jumpedTo w.pc])))

/-- 60_exceptions.md section 1: an operation built by hand either runs as the instruction of its pair, or is the fatal
error of an unsupported operand. That the error is raised exactly where the table has no such pair, whatever the operand,
is the model's deduction (log 16): the section speaks of an operand kind that the handler does not expect. -/
def Obligations.HandBuiltOperations : Prop :=
  (∀ (i : Instr) (s : State), performOperation i.operation s = exec i s) ∧
  (∀ (o : Operation) (s : State),
    performOperation o s = .fault (.unsupportedOperand o.mnemonic o.operand.mode) ↔
      supports o.mnemonic o.operand.mode = false)

/-! ### The encoder -/

/-- 30_encoding.md rule R117: the displacement's range, the byte, and where the engine's branch then goes: to the
label, but 256 bytes short of it at a displacement of +128. -/
def Obligations.RelativeResolution : Prop :=
  ∀ (p : Program) (name : String) (label branch : Nat), resolveAbsolute p name = .ok label →
    let d : Int := (label : Int) - (branch + 2)
    let operand := resolveOperand p branch (.virtual (.relative (.label name)))
    (d < -128 ∨ 128 < d → operand = .error (.relativeOutOfRange d)) ∧
    (-128 ≤ d ∧ d ≤ 128 → ∃ b : Byte, operand = .ok (.rel b) ∧ (b.toNat : Int) = d % 256 ∧
      ∀ s : State, s.pc = BitVec.ofNat 16 (branch + 2) →
        relTarget b s = BitVec.ofInt 16 (if d = 128 then (label : Int) - 256 else label))

/-- 30_encoding.md rule R115. -/
def Obligations.LabelAddressesAreSumsOfLengths : Prop :=
  (∀ (start : Addr) (name : String) (before after : List Element), Element.label name ∉ before →
    Element.label name ∉ after →
    resolveAbsolute ⟨start, before ++ Element.label name :: after⟩ name =
      .ok (start.toNat + (before.map Element.length).sum)) ∧
  (∀ (p : Program) (name : String), Element.label name ∉ p.elements →
    resolveAbsolute p name = .error (.linkage name))

/-- 30_encoding.md section 6: disassembling an image gives back its bytes, and, for a Program of concrete operations,
labels and comments, its operations. That an opcode cut off at the end is data is the model's choice (log 20). -/
def Obligations.DisassemblyRoundTrip : Prop :=
  (∀ (p : Program) (bytes : List Byte), compile p = .ok bytes →
    ∃ img, image p = .ok img ∧ ((disassembleImage img).flatMap pieceBytes) = bytes) ∧
  (∀ (p : Program) (bytes : List Byte), (∀ e ∈ p.elements, PlainElement e) → compile p = .ok bytes →
    ∃ is : List Instr, disassemble bytes = is.map .instruction ∧ is.map Instr.operation = operationsOf p.elements)
end

