-- ==== Sys2Proof/Laws/Decode.lean ====
section
/-! SUPPORT. The small lemmas of slices and concatenation, of the instruction table and of the decoder. -/

namespace Sys2Proof

/-! ### Slices, concatenation, extension -/

/-- An operand byte read in 16 bits gives the byte back. -/
@[simp] theorem lo8_zext (b : Byte) : lo8 (zext b) = b := by
  have := b.isLt
  apply BitVec.eq_of_toNat_eq
  simp only [lo8, zext, BitVec.extractLsb'_toNat, BitVec.toNat_setWidth, Nat.shiftRight_zero]
  omega

@[simp] theorem word_hi8_lo8 (w : Addr) : word (hi8 w) (lo8 w) = w := by
  apply BitVec.eq_of_getLsbD_eq
  intro i hi
  simp only [word, hi8, lo8, BitVec.getLsbD_append, BitVec.getLsbD_extractLsb']
  by_cases h : i < 8
  · simp [h]
  · simp [h, show i - 8 < 8 by omega, show 8 + (i - 8) = i by omega]

/-- A word as the number `h * 256 + l` of 00_scope.md rule R7. -/
theorem word_toNat (h l : Byte) : (word h l).toNat = h.toNat * 256 + l.toNat := by
  simp only [word, BitVec.toNat_append]
  rw [← Nat.shiftLeft_add_eq_or_of_lt l.isLt, Nat.shiftLeft_eq]

theorem lo8_toNat (w : Addr) : (lo8 w).toNat = w.toNat % 256 := by
  simp [lo8, BitVec.extractLsb'_toNat]

theorem hi8_toNat (w : Addr) : (hi8 w).toNat = w.toNat / 256 := by
  have := w.isLt
  simp only [hi8, BitVec.extractLsb'_toNat, Nat.shiftRight_eq_div_pow]
  omega

@[simp] theorem lo8_word (h l : Byte) : lo8 (word h l) = l := by
  have := l.isLt
  apply BitVec.eq_of_toNat_eq
  rw [lo8_toNat, word_toNat]
  omega

@[simp] theorem hi8_word (h l : Byte) : hi8 (word h l) = h := by
  have := l.isLt
  apply BitVec.eq_of_toNat_eq
  rw [hi8_toNat, word_toNat]
  omega

@[simp] theorem zext_toNat (b : Byte) : (zext b).toNat = b.toNat := by
  have := b.isLt
  simp only [zext, BitVec.toNat_setWidth]
  omega

/-! ### The two tables of the spec agree -/

/-- Every pair of rule R92 is the cell of rule R96 that its byte selects. -/
theorem decodeByte_of_encodeByte {mn : Mnemonic} {mode : Mode} {b : Byte} (h : encodeByte mn mode = some b) :
    decodeByte b = some (mn, mode) := by
  have all : ∀ p ∈ encodings mn, decodeByte p.2 = some (mn, p.1) := by cases mn <;> decide
  obtain ⟨l₁, l₂, hl, -⟩ := List.lookup_eq_some_iff.mp h
  exact all (mode, b) (by simp [hl])

/-! ### Operand bytes -/

/-- The operand value that a mode's operand bytes hold: nothing, the low byte, or all of it. -/
def heldValue (mode : Mode) (op : Addr) : Addr :=
  match mode.width with
  | 0 => 0
  | 1 => zext (lo8 op)
  | _ => op

/-- Taking back the operand bytes that were put down, whatever follows them. -/
theorem takeOperand_operandBytes (mode : Mode) (op : Addr) (rest : List Byte) :
    takeOperand mode.width (operandBytes mode op ++ rest) = some (heldValue mode op, rest) := by
  cases mode <;> simp [Mode.width, operandBytes, takeOperand, heldValue]

/-- What the operand bytes do not hold makes no difference to the instruction. -/
theorem ofParts_heldValue (mn : Mnemonic) (mode : Mode) (op : Addr) :
    Instr.ofParts mn mode (heldValue mode op) = Instr.ofParts mn mode op := by
  cases mn <;> cases mode <;> first | rfl | simp only [Instr.ofParts, heldValue, Mode.width, lo8_zext]

/-- Operand bytes are as many as the mode's width. -/
@[simp] theorem operandBytes_length (mode : Mode) (op : Addr) : (operandBytes mode op).length = mode.width := by
  cases mode <;> rfl

/-- What decoding answers: an instruction whose byte the grid has, its operand taken from the bytes after it. -/
theorem decode_ok {bs : List Byte} {i : Instr} {rest : List Byte} (h : decode bs = .ok (i, rest)) :
    ∃ b tail mn mode op, bs = b :: tail ∧ decodeByte b = some (mn, mode) ∧
      takeOperand mode.width tail = some (op, rest) ∧ Instr.ofParts mn mode op = some i := by
  cases bs with
  | nil => simp [decode] at h
  | cons b tail =>
    simp only [decode] at h
    split at h
    · simp at h
    · rename_i mn mode hb
      split at h
      · simp at h
      · rename_i op rest' ho
        split at h
        · rename_i j hj
          simp only [Except.ok.injEq, Prod.mk.injEq] at h
          obtain ⟨rfl, rfl⟩ := h
          exact ⟨b, tail, mn, mode, op, rfl, hb, ho, hj⟩
        · simp at h

/-- Every pair the grid has is a constructor: decoding never meets a pair that has none. -/
theorem ofParts_isSome {b : Byte} {mn : Mnemonic} {mode : Mode} (h : decodeByte b = some (mn, mode)) (op : Addr) :
    (Instr.ofParts mn mode op).isSome = true := by
  revert h
  have all : ∀ b : Byte, ∀ p ∈ decodeByte b, supports p.1 p.2 = true := by decide +revert
  intro h
  have hs := all b (mn, mode) h
  revert hs
  cases mn <;> cases mode <;> first | (intro _; rfl) | (intro hs; exact absurd hs (by decide))

/-- Three bytes are enough for every instruction: fetching finds one exactly where the first byte has an entry. -/
theorem Machine.fetch_eq_none_iff (s : Machine.State) :
    Machine.fetch s = none ↔ decodeByte (s.memRead s.pc) = none := by
  unfold Machine.fetch Machine.fetchBytes
  cases hb : decodeByte (s.memRead s.pc) with
  | none => simp [decode, hb]
  | some p =>
    obtain ⟨mn, mode⟩ := p
    have hop : ∃ op rest', takeOperand mode.width [s.memRead (s.pc + 1), s.memRead (s.pc + 2)] = some (op, rest') := by
      cases mode <;> exact ⟨_, _, rfl⟩
    obtain ⟨op, rest', hop⟩ := hop
    obtain ⟨i, hi⟩ := Option.isSome_iff_exists.mp (ofParts_isSome hb op)
    simp only [decode, hb, hop, hi, reduceCtorEq]

end Sys2Proof
end

