-- ==== Sys2Proof/Laws/State.lean ====
section
/-! SUPPORT. One lemma per field per update of the state, each true by definition, so that no later proof unfolds a
record update. -/

namespace Sys2Proof.Machine

variable (s : State)

/-! ### `withA` -/

@[simp] theorem State.withA_a (v : Byte) : (s.withA v).a = v := rfl
@[simp] theorem State.withA_x (v : Byte) : (s.withA v).x = s.x := rfl
@[simp] theorem State.withA_y (v : Byte) : (s.withA v).y = s.y := rfl
@[simp] theorem State.withA_sp (v : Byte) : (s.withA v).sp = s.sp := rfl
@[simp] theorem State.withA_pc (v : Byte) : (s.withA v).pc = s.pc := rfl
@[simp] theorem State.withA_flags (v : Byte) : (s.withA v).flags = s.flags := rfl
@[simp] theorem State.withA_mem (v : Byte) : (s.withA v).mem = s.mem := rfl
@[simp] theorem State.withA_trapTable (v : Byte) : (s.withA v).trapTable = s.trapTable := rfl
@[simp] theorem State.withA_opCount (v : Byte) : (s.withA v).opCount = s.opCount := rfl
@[simp] theorem State.withA_listeners (v : Byte) : (s.withA v).listeners = s.listeners := rfl
@[simp] theorem State.withA_delivered (v : Byte) : (s.withA v).delivered = s.delivered := rfl
@[simp] theorem State.withA_hookTick (v : Byte) : (s.withA v).hookTick = s.hookTick := rfl
@[simp] theorem State.withA_cfg (v : Byte) : (s.withA v).cfg = s.cfg := rfl

/-! ### `withX` -/

@[simp] theorem State.withX_a (v : Byte) : (s.withX v).a = s.a := rfl
@[simp] theorem State.withX_x (v : Byte) : (s.withX v).x = v := rfl
@[simp] theorem State.withX_y (v : Byte) : (s.withX v).y = s.y := rfl
@[simp] theorem State.withX_sp (v : Byte) : (s.withX v).sp = s.sp := rfl
@[simp] theorem State.withX_pc (v : Byte) : (s.withX v).pc = s.pc := rfl
@[simp] theorem State.withX_flags (v : Byte) : (s.withX v).flags = s.flags := rfl
@[simp] theorem State.withX_mem (v : Byte) : (s.withX v).mem = s.mem := rfl
@[simp] theorem State.withX_trapTable (v : Byte) : (s.withX v).trapTable = s.trapTable := rfl
@[simp] theorem State.withX_opCount (v : Byte) : (s.withX v).opCount = s.opCount := rfl
@[simp] theorem State.withX_listeners (v : Byte) : (s.withX v).listeners = s.listeners := rfl
@[simp] theorem State.withX_delivered (v : Byte) : (s.withX v).delivered = s.delivered := rfl
@[simp] theorem State.withX_hookTick (v : Byte) : (s.withX v).hookTick = s.hookTick := rfl
@[simp] theorem State.withX_cfg (v : Byte) : (s.withX v).cfg = s.cfg := rfl

/-! ### `withY` -/

@[simp] theorem State.withY_a (v : Byte) : (s.withY v).a = s.a := rfl
@[simp] theorem State.withY_x (v : Byte) : (s.withY v).x = s.x := rfl
@[simp] theorem State.withY_y (v : Byte) : (s.withY v).y = v := rfl
@[simp] theorem State.withY_sp (v : Byte) : (s.withY v).sp = s.sp := rfl
@[simp] theorem State.withY_pc (v : Byte) : (s.withY v).pc = s.pc := rfl
@[simp] theorem State.withY_flags (v : Byte) : (s.withY v).flags = s.flags := rfl
@[simp] theorem State.withY_mem (v : Byte) : (s.withY v).mem = s.mem := rfl
@[simp] theorem State.withY_trapTable (v : Byte) : (s.withY v).trapTable = s.trapTable := rfl
@[simp] theorem State.withY_opCount (v : Byte) : (s.withY v).opCount = s.opCount := rfl
@[simp] theorem State.withY_listeners (v : Byte) : (s.withY v).listeners = s.listeners := rfl
@[simp] theorem State.withY_delivered (v : Byte) : (s.withY v).delivered = s.delivered := rfl
@[simp] theorem State.withY_hookTick (v : Byte) : (s.withY v).hookTick = s.hookTick := rfl
@[simp] theorem State.withY_cfg (v : Byte) : (s.withY v).cfg = s.cfg := rfl

/-! ### `withSp` -/

@[simp] theorem State.withSp_a (v : Byte) : (s.withSp v).a = s.a := rfl
@[simp] theorem State.withSp_x (v : Byte) : (s.withSp v).x = s.x := rfl
@[simp] theorem State.withSp_y (v : Byte) : (s.withSp v).y = s.y := rfl
@[simp] theorem State.withSp_sp (v : Byte) : (s.withSp v).sp = v := rfl
@[simp] theorem State.withSp_pc (v : Byte) : (s.withSp v).pc = s.pc := rfl
@[simp] theorem State.withSp_flags (v : Byte) : (s.withSp v).flags = s.flags := rfl
@[simp] theorem State.withSp_mem (v : Byte) : (s.withSp v).mem = s.mem := rfl
@[simp] theorem State.withSp_trapTable (v : Byte) : (s.withSp v).trapTable = s.trapTable := rfl
@[simp] theorem State.withSp_opCount (v : Byte) : (s.withSp v).opCount = s.opCount := rfl
@[simp] theorem State.withSp_listeners (v : Byte) : (s.withSp v).listeners = s.listeners := rfl
@[simp] theorem State.withSp_delivered (v : Byte) : (s.withSp v).delivered = s.delivered := rfl
@[simp] theorem State.withSp_hookTick (v : Byte) : (s.withSp v).hookTick = s.hookTick := rfl
@[simp] theorem State.withSp_cfg (v : Byte) : (s.withSp v).cfg = s.cfg := rfl

/-! ### `withPc` -/

@[simp] theorem State.withPc_a (t : Addr) : (s.withPc t).a = s.a := rfl
@[simp] theorem State.withPc_x (t : Addr) : (s.withPc t).x = s.x := rfl
@[simp] theorem State.withPc_y (t : Addr) : (s.withPc t).y = s.y := rfl
@[simp] theorem State.withPc_sp (t : Addr) : (s.withPc t).sp = s.sp := rfl
@[simp] theorem State.withPc_pc (t : Addr) : (s.withPc t).pc = t := rfl
@[simp] theorem State.withPc_flags (t : Addr) : (s.withPc t).flags = s.flags := rfl
@[simp] theorem State.withPc_mem (t : Addr) : (s.withPc t).mem = s.mem := rfl
@[simp] theorem State.withPc_trapTable (t : Addr) : (s.withPc t).trapTable = s.trapTable := rfl
@[simp] theorem State.withPc_opCount (t : Addr) : (s.withPc t).opCount = s.opCount := rfl
@[simp] theorem State.withPc_listeners (t : Addr) : (s.withPc t).listeners = s.listeners := rfl
@[simp] theorem State.withPc_delivered (t : Addr) : (s.withPc t).delivered = s.delivered := rfl
@[simp] theorem State.withPc_hookTick (t : Addr) : (s.withPc t).hookTick = s.hookTick := rfl
@[simp] theorem State.withPc_cfg (t : Addr) : (s.withPc t).cfg = s.cfg := rfl

/-! ### `withFlags` -/

@[simp] theorem State.withFlags_a (f : Flags) : (s.withFlags f).a = s.a := rfl
@[simp] theorem State.withFlags_x (f : Flags) : (s.withFlags f).x = s.x := rfl
@[simp] theorem State.withFlags_y (f : Flags) : (s.withFlags f).y = s.y := rfl
@[simp] theorem State.withFlags_sp (f : Flags) : (s.withFlags f).sp = s.sp := rfl
@[simp] theorem State.withFlags_pc (f : Flags) : (s.withFlags f).pc = s.pc := rfl
@[simp] theorem State.withFlags_flags (f : Flags) : (s.withFlags f).flags = f := rfl
@[simp] theorem State.withFlags_mem (f : Flags) : (s.withFlags f).mem = s.mem := rfl
@[simp] theorem State.withFlags_trapTable (f : Flags) : (s.withFlags f).trapTable = s.trapTable := rfl
@[simp] theorem State.withFlags_opCount (f : Flags) : (s.withFlags f).opCount = s.opCount := rfl
@[simp] theorem State.withFlags_listeners (f : Flags) : (s.withFlags f).listeners = s.listeners := rfl
@[simp] theorem State.withFlags_delivered (f : Flags) : (s.withFlags f).delivered = s.delivered := rfl
@[simp] theorem State.withFlags_hookTick (f : Flags) : (s.withFlags f).hookTick = s.hookTick := rfl
@[simp] theorem State.withFlags_cfg (f : Flags) : (s.withFlags f).cfg = s.cfg := rfl

/-! ### `withMem` -/

@[simp] theorem State.withMem_a (m : Memory) : (s.withMem m).a = s.a := rfl
@[simp] theorem State.withMem_x (m : Memory) : (s.withMem m).x = s.x := rfl
@[simp] theorem State.withMem_y (m : Memory) : (s.withMem m).y = s.y := rfl
@[simp] theorem State.withMem_sp (m : Memory) : (s.withMem m).sp = s.sp := rfl
@[simp] theorem State.withMem_pc (m : Memory) : (s.withMem m).pc = s.pc := rfl
@[simp] theorem State.withMem_flags (m : Memory) : (s.withMem m).flags = s.flags := rfl
@[simp] theorem State.withMem_mem (m : Memory) : (s.withMem m).mem = m := rfl
@[simp] theorem State.withMem_trapTable (m : Memory) : (s.withMem m).trapTable = s.trapTable := rfl
@[simp] theorem State.withMem_opCount (m : Memory) : (s.withMem m).opCount = s.opCount := rfl
@[simp] theorem State.withMem_listeners (m : Memory) : (s.withMem m).listeners = s.listeners := rfl
@[simp] theorem State.withMem_delivered (m : Memory) : (s.withMem m).delivered = s.delivered := rfl
@[simp] theorem State.withMem_hookTick (m : Memory) : (s.withMem m).hookTick = s.hookTick := rfl
@[simp] theorem State.withMem_cfg (m : Memory) : (s.withMem m).cfg = s.cfg := rfl

/-! ### `withTrapTable` -/

@[simp] theorem State.withTrapTable_a (t : TrapTable) : (s.withTrapTable t).a = s.a := rfl
@[simp] theorem State.withTrapTable_x (t : TrapTable) : (s.withTrapTable t).x = s.x := rfl
@[simp] theorem State.withTrapTable_y (t : TrapTable) : (s.withTrapTable t).y = s.y := rfl
@[simp] theorem State.withTrapTable_sp (t : TrapTable) : (s.withTrapTable t).sp = s.sp := rfl
@[simp] theorem State.withTrapTable_pc (t : TrapTable) : (s.withTrapTable t).pc = s.pc := rfl
@[simp] theorem State.withTrapTable_flags (t : TrapTable) : (s.withTrapTable t).flags = s.flags := rfl
@[simp] theorem State.withTrapTable_mem (t : TrapTable) : (s.withTrapTable t).mem = s.mem := rfl
@[simp] theorem State.withTrapTable_trapTable (t : TrapTable) : (s.withTrapTable t).trapTable = t := rfl
@[simp] theorem State.withTrapTable_opCount (t : TrapTable) : (s.withTrapTable t).opCount = s.opCount := rfl
@[simp] theorem State.withTrapTable_listeners (t : TrapTable) : (s.withTrapTable t).listeners = s.listeners := rfl
@[simp] theorem State.withTrapTable_delivered (t : TrapTable) : (s.withTrapTable t).delivered = s.delivered := rfl
@[simp] theorem State.withTrapTable_hookTick (t : TrapTable) : (s.withTrapTable t).hookTick = s.hookTick := rfl
@[simp] theorem State.withTrapTable_cfg (t : TrapTable) : (s.withTrapTable t).cfg = s.cfg := rfl

/-! ### `countStep` -/

@[simp] theorem State.countStep_a : (s.countStep).a = s.a := rfl
@[simp] theorem State.countStep_x : (s.countStep).x = s.x := rfl
@[simp] theorem State.countStep_y : (s.countStep).y = s.y := rfl
@[simp] theorem State.countStep_sp : (s.countStep).sp = s.sp := rfl
@[simp] theorem State.countStep_pc : (s.countStep).pc = s.pc := rfl
@[simp] theorem State.countStep_flags : (s.countStep).flags = s.flags := rfl
@[simp] theorem State.countStep_mem : (s.countStep).mem = s.mem := rfl
@[simp] theorem State.countStep_trapTable : (s.countStep).trapTable = s.trapTable := rfl
@[simp] theorem State.countStep_opCount : (s.countStep).opCount = s.opCount + 1 := rfl
@[simp] theorem State.countStep_listeners : (s.countStep).listeners = s.listeners := rfl
@[simp] theorem State.countStep_delivered : (s.countStep).delivered = s.delivered := rfl
@[simp] theorem State.countStep_hookTick : (s.countStep).hookTick = s.hookTick := rfl
@[simp] theorem State.countStep_cfg : (s.countStep).cfg = s.cfg := rfl

/-! ### `countHook` -/

@[simp] theorem State.countHook_a : (s.countHook).a = s.a := rfl
@[simp] theorem State.countHook_x : (s.countHook).x = s.x := rfl
@[simp] theorem State.countHook_y : (s.countHook).y = s.y := rfl
@[simp] theorem State.countHook_sp : (s.countHook).sp = s.sp := rfl
@[simp] theorem State.countHook_pc : (s.countHook).pc = s.pc := rfl
@[simp] theorem State.countHook_flags : (s.countHook).flags = s.flags := rfl
@[simp] theorem State.countHook_mem : (s.countHook).mem = s.mem := rfl
@[simp] theorem State.countHook_trapTable : (s.countHook).trapTable = s.trapTable := rfl
@[simp] theorem State.countHook_opCount : (s.countHook).opCount = s.opCount := rfl
@[simp] theorem State.countHook_listeners : (s.countHook).listeners = s.listeners := rfl
@[simp] theorem State.countHook_delivered : (s.countHook).delivered = s.delivered := rfl
@[simp] theorem State.countHook_hookTick : (s.countHook).hookTick = s.hookTick + 1 := rfl
@[simp] theorem State.countHook_cfg : (s.countHook).cfg = s.cfg := rfl

/-! ### `addListener` -/

@[simp] theorem State.addListener_a (l : Listener) : (s.addListener l).a = s.a := rfl
@[simp] theorem State.addListener_x (l : Listener) : (s.addListener l).x = s.x := rfl
@[simp] theorem State.addListener_y (l : Listener) : (s.addListener l).y = s.y := rfl
@[simp] theorem State.addListener_sp (l : Listener) : (s.addListener l).sp = s.sp := rfl
@[simp] theorem State.addListener_pc (l : Listener) : (s.addListener l).pc = s.pc := rfl
@[simp] theorem State.addListener_flags (l : Listener) : (s.addListener l).flags = s.flags := rfl
@[simp] theorem State.addListener_mem (l : Listener) : (s.addListener l).mem = s.mem := rfl
@[simp] theorem State.addListener_trapTable (l : Listener) : (s.addListener l).trapTable = s.trapTable := rfl
@[simp] theorem State.addListener_opCount (l : Listener) : (s.addListener l).opCount = s.opCount := rfl
@[simp] theorem State.addListener_listeners (l : Listener) : (s.addListener l).listeners = s.listeners ++ [l] := rfl
@[simp] theorem State.addListener_delivered (l : Listener) : (s.addListener l).delivered = s.delivered := rfl
@[simp] theorem State.addListener_hookTick (l : Listener) : (s.addListener l).hookTick = s.hookTick := rfl
@[simp] theorem State.addListener_cfg (l : Listener) : (s.addListener l).cfg = s.cfg := rfl

/-! ### `setNZ` -/

@[simp] theorem State.setNZ_a (v : Byte) : (s.setNZ v).a = s.a := rfl
@[simp] theorem State.setNZ_x (v : Byte) : (s.setNZ v).x = s.x := rfl
@[simp] theorem State.setNZ_y (v : Byte) : (s.setNZ v).y = s.y := rfl
@[simp] theorem State.setNZ_sp (v : Byte) : (s.setNZ v).sp = s.sp := rfl
@[simp] theorem State.setNZ_pc (v : Byte) : (s.setNZ v).pc = s.pc := rfl
@[simp] theorem State.setNZ_flags (v : Byte) : (s.setNZ v).flags = s.flags.setNZ v := rfl
@[simp] theorem State.setNZ_mem (v : Byte) : (s.setNZ v).mem = s.mem := rfl
@[simp] theorem State.setNZ_trapTable (v : Byte) : (s.setNZ v).trapTable = s.trapTable := rfl
@[simp] theorem State.setNZ_opCount (v : Byte) : (s.setNZ v).opCount = s.opCount := rfl
@[simp] theorem State.setNZ_listeners (v : Byte) : (s.setNZ v).listeners = s.listeners := rfl
@[simp] theorem State.setNZ_delivered (v : Byte) : (s.setNZ v).delivered = s.delivered := rfl
@[simp] theorem State.setNZ_hookTick (v : Byte) : (s.setNZ v).hookTick = s.hookTick := rfl
@[simp] theorem State.setNZ_cfg (v : Byte) : (s.setNZ v).cfg = s.cfg := rfl

/-! ### `emit` -/

@[simp] theorem State.emit_a (es : List Event) : (s.emit es).a = s.a := rfl
@[simp] theorem State.emit_x (es : List Event) : (s.emit es).x = s.x := rfl
@[simp] theorem State.emit_y (es : List Event) : (s.emit es).y = s.y := rfl
@[simp] theorem State.emit_sp (es : List Event) : (s.emit es).sp = s.sp := rfl
@[simp] theorem State.emit_pc (es : List Event) : (s.emit es).pc = s.pc := rfl
@[simp] theorem State.emit_flags (es : List Event) : (s.emit es).flags = s.flags := rfl
@[simp] theorem State.emit_mem (es : List Event) : (s.emit es).mem = s.mem := rfl
@[simp] theorem State.emit_trapTable (es : List Event) : (s.emit es).trapTable = s.trapTable := rfl
@[simp] theorem State.emit_opCount (es : List Event) : (s.emit es).opCount = s.opCount := rfl
@[simp] theorem State.emit_listeners (es : List Event) : (s.emit es).listeners = s.listeners := rfl
@[simp] theorem State.emit_delivered (es : List Event) : (s.emit es).delivered = s.delivered ++ notifications s.listeners es := rfl
@[simp] theorem State.emit_hookTick (es : List Event) : (s.emit es).hookTick = s.hookTick := rfl
@[simp] theorem State.emit_cfg (es : List Event) : (s.emit es).cfg = s.cfg := rfl

/-! ### `memWrite` -/

@[simp] theorem State.memWrite_a (a : Addr) (v : Byte) : (s.memWrite a v).a = s.a := rfl
@[simp] theorem State.memWrite_x (a : Addr) (v : Byte) : (s.memWrite a v).x = s.x := rfl
@[simp] theorem State.memWrite_y (a : Addr) (v : Byte) : (s.memWrite a v).y = s.y := rfl
@[simp] theorem State.memWrite_sp (a : Addr) (v : Byte) : (s.memWrite a v).sp = s.sp := rfl
@[simp] theorem State.memWrite_pc (a : Addr) (v : Byte) : (s.memWrite a v).pc = s.pc := rfl
@[simp] theorem State.memWrite_flags (a : Addr) (v : Byte) : (s.memWrite a v).flags = s.flags := rfl
@[simp] theorem State.memWrite_mem (a : Addr) (v : Byte) : (s.memWrite a v).mem = s.mem.write a.toNat v := rfl
@[simp] theorem State.memWrite_trapTable (a : Addr) (v : Byte) : (s.memWrite a v).trapTable = s.trapTable := rfl
@[simp] theorem State.memWrite_opCount (a : Addr) (v : Byte) : (s.memWrite a v).opCount = s.opCount := rfl
@[simp] theorem State.memWrite_listeners (a : Addr) (v : Byte) : (s.memWrite a v).listeners = s.listeners := rfl
@[simp] theorem State.memWrite_delivered (a : Addr) (v : Byte) : (s.memWrite a v).delivered = s.delivered ++ notifications s.listeners [.memoryChanged a (s.memRead a) v] := rfl
@[simp] theorem State.memWrite_hookTick (a : Addr) (v : Byte) : (s.memWrite a v).hookTick = s.hookTick := rfl
@[simp] theorem State.memWrite_cfg (a : Addr) (v : Byte) : (s.memWrite a v).cfg = s.cfg := rfl

/-! ### `push8` -/

@[simp] theorem State.push8_a (v : Byte) : (s.push8 v).a = s.a := rfl
@[simp] theorem State.push8_x (v : Byte) : (s.push8 v).x = s.x := rfl
@[simp] theorem State.push8_y (v : Byte) : (s.push8 v).y = s.y := rfl
@[simp] theorem State.push8_sp (v : Byte) : (s.push8 v).sp = s.sp - 1 := rfl
@[simp] theorem State.push8_pc (v : Byte) : (s.push8 v).pc = s.pc := rfl
@[simp] theorem State.push8_flags (v : Byte) : (s.push8 v).flags = s.flags := rfl
@[simp] theorem State.push8_mem (v : Byte) : (s.push8 v).mem = s.mem.write s.stackTop.toNat v := rfl
@[simp] theorem State.push8_trapTable (v : Byte) : (s.push8 v).trapTable = s.trapTable := rfl
@[simp] theorem State.push8_opCount (v : Byte) : (s.push8 v).opCount = s.opCount := rfl
@[simp] theorem State.push8_listeners (v : Byte) : (s.push8 v).listeners = s.listeners := rfl
@[simp] theorem State.push8_delivered (v : Byte) : (s.push8 v).delivered = s.delivered ++ notifications s.listeners [.memoryChanged s.stackTop (s.memRead s.stackTop) v] := rfl
@[simp] theorem State.push8_hookTick (v : Byte) : (s.push8 v).hookTick = s.hookTick := rfl
@[simp] theorem State.push8_cfg (v : Byte) : (s.push8 v).cfg = s.cfg := rfl

/-! ### `pop8` -/

@[simp] theorem State.pop8_a : (s.pop8).a = s.a := rfl
@[simp] theorem State.pop8_x : (s.pop8).x = s.x := rfl
@[simp] theorem State.pop8_y : (s.pop8).y = s.y := rfl
@[simp] theorem State.pop8_sp : (s.pop8).sp = s.sp + 1 := rfl
@[simp] theorem State.pop8_pc : (s.pop8).pc = s.pc := rfl
@[simp] theorem State.pop8_flags : (s.pop8).flags = s.flags := rfl
@[simp] theorem State.pop8_mem : (s.pop8).mem = s.mem := rfl
@[simp] theorem State.pop8_trapTable : (s.pop8).trapTable = s.trapTable := rfl
@[simp] theorem State.pop8_opCount : (s.pop8).opCount = s.opCount := rfl
@[simp] theorem State.pop8_listeners : (s.pop8).listeners = s.listeners := rfl
@[simp] theorem State.pop8_delivered : (s.pop8).delivered = s.delivered := rfl
@[simp] theorem State.pop8_hookTick : (s.pop8).hookTick = s.hookTick := rfl
@[simp] theorem State.pop8_cfg : (s.pop8).cfg = s.cfg := rfl

end Sys2Proof.Machine
end

