-- ==== Sys2Proof/Laws/Memory.lean ====
section
/-! SUPPORT. Memory as a canonical list: read after write, the canonical form, and that memories which read the same
are the same list. -/

namespace Sys2Proof

/-! ### Read after write -/

theorem Memory.read_erase_same (m : Memory) (k : Nat) : (m.erase k).read k = Memory.unwritten := by
  induction m with
  | nil => rfl
  | cons c rest ih =>
    obtain ⟨k', v'⟩ := c
    by_cases h : k' = k
    · simpa [Memory.erase, h] using ih
    · have : ¬ k = k' := fun e => h e.symm
      simpa [Memory.erase, h, Memory.read, this] using ih

theorem Memory.read_erase_other (m : Memory) {k j : Nat} (hj : j ≠ k) : (m.erase k).read j = m.read j := by
  induction m with
  | nil => rfl
  | cons c rest ih =>
    obtain ⟨k', v'⟩ := c
    by_cases h : k' = k
    · have : ¬ j = k' := fun e => hj (e.trans h)
      simpa [Memory.erase, h, Memory.read, hj] using ih
    · by_cases hj' : j = k'
      · simp [Memory.erase, h, Memory.read, hj']
      · simpa [Memory.erase, h, Memory.read, hj'] using ih

theorem Memory.read_insert_same (m : Memory) (k : Nat) (v : Byte) (h : ∀ c ∈ m, c.1 ≠ k) :
    (m.insert k v).read k = v := by
  induction m with
  | nil => simp [Memory.insert, Memory.read]
  | cons c rest ih =>
    obtain ⟨k', v'⟩ := c
    have hk : ¬ k = k' := fun e => h (k', v') (by simp) e.symm
    have ih := ih fun c hc => h c (by simp [hc])
    by_cases hlt : k < k'
    · simp [Memory.insert, hlt, Memory.read]
    · simpa [Memory.insert, hlt, Memory.read, hk] using ih

theorem Memory.read_insert_other (m : Memory) {k j : Nat} (v : Byte) (hj : j ≠ k) :
    (m.insert k v).read j = m.read j := by
  induction m with
  | nil => simp [Memory.insert, Memory.read, hj]
  | cons c rest ih =>
    obtain ⟨k', v'⟩ := c
    by_cases hlt : k < k'
    · simp [Memory.insert, hlt, Memory.read, hj]
    · by_cases hj' : j = k'
      · simp [Memory.insert, hlt, Memory.read, hj']
      · simpa [Memory.insert, hlt, Memory.read, hj'] using ih

theorem Memory.erase_ne (m : Memory) (k : Nat) : ∀ c ∈ m.erase k, c.1 ≠ k := by
  intro c hc
  simpa using (List.mem_filter.mp hc).2

/-- What is read at the address written is what was written. -/
@[simp] theorem Memory.read_write_same (m : Memory) (k : Nat) (v : Byte) : (m.write k v).read k = v := by
  unfold Memory.write
  split
  · rename_i h
    rw [Memory.read_erase_same, h]
  · exact Memory.read_insert_same _ _ _ (Memory.erase_ne m k)

/-- A write leaves every other address alone. -/
theorem Memory.read_write_other (m : Memory) {k j : Nat} (v : Byte) (hj : j ≠ k) :
    (m.write k v).read j = m.read j := by
  unfold Memory.write
  split
  · exact Memory.read_erase_other m hj
  · rw [Memory.read_insert_other _ v hj, Memory.read_erase_other m hj]

/-- Both at once. -/
theorem Memory.read_write (m : Memory) (k j : Nat) (v : Byte) :
    (m.write k v).read j = if j = k then v else m.read j := by
  split
  · rename_i h
    rw [h, Memory.read_write_same]
  · rename_i h
    exact Memory.read_write_other m v h

/-! ### The canonical form -/

theorem Memory.wfFrom_cons {low k : Nat} {v : Byte} {rest : Memory} :
    Memory.wfFrom low ((k, v) :: rest) = true ↔
      low ≤ k ∧ k < 65536 ∧ v ≠ Memory.unwritten ∧ Memory.wfFrom (k + 1) rest = true := by
  simp only [Memory.wfFrom, Bool.and_eq_true, decide_eq_true_eq, and_assoc]

theorem Memory.wfFrom_mono {low low' : Nat} (h : low' ≤ low) {m : Memory} (hm : Memory.wfFrom low m = true) :
    Memory.wfFrom low' m = true := by
  cases m with
  | nil => rfl
  | cons c rest =>
    obtain ⟨k, v⟩ := c
    rw [Memory.wfFrom_cons] at hm ⊢
    exact ⟨by omega, hm.2⟩

theorem Memory.wfFrom_erase (k : Nat) {low : Nat} {m : Memory} (hm : Memory.wfFrom low m = true) :
    Memory.wfFrom low (m.erase k) = true := by
  induction m generalizing low with
  | nil => rfl
  | cons c rest ih =>
    obtain ⟨k', v'⟩ := c
    rw [Memory.wfFrom_cons] at hm
    by_cases h : k' = k
    · have := Memory.wfFrom_mono (low' := low) (by omega) (ih hm.2.2.2)
      simpa [Memory.erase, h] using this
    · have := ih hm.2.2.2
      simp only [Memory.erase, List.filter_cons, h, ne_eq, not_false_eq_true, decide_true, if_true]
      rw [Memory.wfFrom_cons]
      exact ⟨hm.1, hm.2.1, hm.2.2.1, this⟩

theorem Memory.wfFrom_insert {k : Nat} {v : Byte} (hk : k < 65536) (hv : v ≠ Memory.unwritten) {low : Nat}
    {m : Memory} (hlow : low ≤ k) (hne : ∀ c ∈ m, c.1 ≠ k) (hm : Memory.wfFrom low m = true) :
    Memory.wfFrom low (m.insert k v) = true := by
  induction m generalizing low with
  | nil => simpa [Memory.insert, Memory.wfFrom_cons] using ⟨hlow, hk, hv, rfl⟩
  | cons c rest ih =>
    obtain ⟨k', v'⟩ := c
    rw [Memory.wfFrom_cons] at hm
    have hk' : k' ≠ k := hne (k', v') (by simp)
    unfold Memory.insert
    split
    · rename_i hlt
      rw [Memory.wfFrom_cons, Memory.wfFrom_cons]
      exact ⟨hlow, hk, hv, by omega, hm.2⟩
    · rename_i hlt
      rw [Memory.wfFrom_cons]
      exact ⟨hm.1, hm.2.1, hm.2.2.1,
        ih (by omega) (fun c hc => hne c (by simp [hc])) hm.2.2.2⟩

/-- A write keeps the canonical form. -/
theorem Memory.wf_write {m : Memory} (hm : m.wf = true) {k : Nat} (hk : k < 65536) (v : Byte) :
    (m.write k v).wf = true := by
  unfold Memory.write
  split
  · exact Memory.wfFrom_erase k hm
  · rename_i hv
    exact Memory.wfFrom_insert hk hv (Nat.zero_le k) (Memory.erase_ne m k) (Memory.wfFrom_erase k hm)

/-! ### Memories that read the same -/

theorem Memory.read_below {low j : Nat} {m : Memory} (hm : Memory.wfFrom low m = true) (hj : j < low) :
    m.read j = Memory.unwritten := by
  induction m generalizing low with
  | nil => rfl
  | cons c rest ih =>
    obtain ⟨k, v⟩ := c
    rw [Memory.wfFrom_cons] at hm
    have : ¬ j = k := by omega
    simpa [Memory.read, this] using ih hm.2.2.2 (by omega)

theorem Memory.read_above {low j : Nat} {m : Memory} (hm : Memory.wfFrom low m = true) (hj : 65536 ≤ j) :
    m.read j = Memory.unwritten := by
  induction m generalizing low with
  | nil => rfl
  | cons c rest ih =>
    obtain ⟨k, v⟩ := c
    rw [Memory.wfFrom_cons] at hm
    have : ¬ j = k := by omega
    simpa [Memory.read, this] using ih hm.2.2.2

/-- In the canonical form, memories that read the same are equal as data. -/
theorem Memory.ext_of_wfFrom {low : Nat} {m n : Memory} (hm : Memory.wfFrom low m = true)
    (hn : Memory.wfFrom low n = true) (h : ∀ j, m.read j = n.read j) : m = n := by
  induction m generalizing low n with
  | nil =>
    cases n with
    | nil => rfl
    | cons d rest =>
      obtain ⟨k, v⟩ := d
      rw [Memory.wfFrom_cons] at hn
      have := h k
      simp [Memory.read] at this
      exact absurd this.symm hn.2.2.1
  | cons c rest ih =>
    obtain ⟨k, v⟩ := c
    rw [Memory.wfFrom_cons] at hm
    cases n with
    | nil =>
      have := h k
      simp [Memory.read] at this
      exact absurd this hm.2.2.1
    | cons d rest' =>
      obtain ⟨k', v'⟩ := d
      rw [Memory.wfFrom_cons] at hn
      have hkk : k = k' := by
        rcases Nat.lt_trichotomy k k' with hlt | heq | hgt
        · have h1 := h k
          have h2 : Memory.read ((k', v') :: rest') k = Memory.unwritten := by
            simp only [Memory.read]
            rw [if_neg (by omega)]
            exact Memory.read_below hn.2.2.2 (by omega)
          rw [h2] at h1
          simp only [Memory.read, if_true] at h1
          exact absurd h1 hm.2.2.1
        · exact heq
        · have h1 := h k'
          have h2 : Memory.read ((k, v) :: rest) k' = Memory.unwritten := by
            simp only [Memory.read]
            rw [if_neg (by omega)]
            exact Memory.read_below hm.2.2.2 (by omega)
          rw [h2] at h1
          simp only [Memory.read, if_true] at h1
          exact absurd h1.symm hn.2.2.1
      subst hkk
      have hv : v = v' := by simpa [Memory.read] using h k
      subst hv
      have : rest = rest' := by
        refine ih hm.2.2.2 hn.2.2.2 fun j => ?_
        by_cases hj : j = k
        · subst hj
          rw [Memory.read_below hm.2.2.2 (by omega), Memory.read_below hn.2.2.2 (by omega)]
        · simpa [Memory.read, hj] using h j
      rw [this]

namespace Machine

/-! ### Byte accesses of the state -/

/-- Reading after one byte write. -/
theorem State.memRead_memWrite (s : State) (a b : Addr) (v : Byte) :
    (s.memWrite a v).memRead b = if b = a then v else s.memRead b := by
  unfold State.memRead
  rw [State.memWrite_mem, Memory.read_write]
  by_cases h : b = a
  · simp [h]
  · have : ¬ b.toNat = a.toNat := fun e => h (BitVec.eq_of_toNat_eq e)
    simp [h, this]

@[simp] theorem State.memRead_memWrite_same (s : State) (a : Addr) (v : Byte) : (s.memWrite a v).memRead a = v := by
  rw [State.memRead_memWrite, if_pos rfl]

theorem State.memRead_memWrite_other (s : State) {a b : Addr} (v : Byte) (h : b ≠ a) :
    (s.memWrite a v).memRead b = s.memRead b := by
  rw [State.memRead_memWrite, if_neg h]

end Machine
end Sys2Proof
end

