-- ==== Sys2Proof/Laws/Ops.lean ====
section
/-! SUPPORT. What each shared operation over the stack can do, said once: the slots of the stack page, pushes and pops,
interrupt entry and the two returns; and what emitting events keeps. -/

namespace Sys2Proof.Machine

variable (s : State)

/-! ### Stack slots -/

/-- A byte read in 16 bits determines the byte. -/
theorem zext_injective {b c : Byte} (h : zext b = zext c) : b = c := by
  apply BitVec.eq_of_toNat_eq
  have := congrArg BitVec.toNat h
  simp only [zext, BitVec.toNat_setWidth] at this
  have := b.isLt
  have := c.isLt
  omega

/-- Two slots of one page are the same only for the same stack pointer. -/
theorem slot_inj {base : Addr} {b c : Byte} : base + zext b = base + zext c ↔ b = c :=
  ⟨fun h => zext_injective (BitVec.add_right_inj base |>.mp h), fun h => by rw [h]⟩

@[simp] theorem State.stackTop_def : s.stackTop = s.cfg.stackBase + zext s.sp := rfl

theorem stackSlot_def (k : Byte) : stackSlot s k = s.cfg.stackBase + zext (s.sp - k) := rfl

theorem stackSlot_zero : stackSlot s 0 = s.cfg.stackBase + zext s.sp := by
  simp [stackSlot]

/-! ### Reading memory after a push -/

theorem State.memRead_push8 (v : Byte) (a : Addr) :
    (s.push8 v).memRead a = if a = s.cfg.stackBase + zext s.sp then v else s.memRead a := by
  show (s.memWrite s.stackTop v).memRead a = _
  rw [State.memRead_memWrite]
  rfl

@[simp] theorem State.memRead_withSp (v : Byte) (a : Addr) : (s.withSp v).memRead a = s.memRead a := rfl
@[simp] theorem State.memRead_withPc (t : Addr) (a : Addr) : (s.withPc t).memRead a = s.memRead a := rfl
@[simp] theorem State.memRead_withFlags (f : Flags) (a : Addr) : (s.withFlags f).memRead a = s.memRead a := rfl
@[simp] theorem State.memRead_withA (v : Byte) (a : Addr) : (s.withA v).memRead a = s.memRead a := rfl
@[simp] theorem State.memRead_withX (v : Byte) (a : Addr) : (s.withX v).memRead a = s.memRead a := rfl
@[simp] theorem State.memRead_withY (v : Byte) (a : Addr) : (s.withY v).memRead a = s.memRead a := rfl
@[simp] theorem State.memRead_setNZ (v : Byte) (a : Addr) : (s.setNZ v).memRead a = s.memRead a := rfl
@[simp] theorem State.memRead_emit (es : List Event) (a : Addr) : (s.emit es).memRead a = s.memRead a := rfl
@[simp] theorem State.memRead_pop8 (a : Addr) : s.pop8.memRead a = s.memRead a := rfl
@[simp] theorem State.memRead_countStep (a : Addr) : s.countStep.memRead a = s.memRead a := rfl

/-- What a byte write leaves alone. -/
theorem State.memWrite_eq (a : Addr) (v : Byte) :
    s.memWrite a v = { s with mem := (s.memWrite a v).mem, delivered := (s.memWrite a v).delivered } := rfl

/-- What a push leaves alone. -/
theorem State.push8_eq (v : Byte) :
    s.push8 v = { s with mem := (s.push8 v).mem, delivered := (s.push8 v).delivered, sp := s.sp - 1 } := rfl

/-- What pushing an address leaves alone. -/
theorem State.push16_eq (w : Addr) :
    s.push16 w = { s with mem := (s.push16 w).mem, delivered := (s.push16 w).delivered, sp := s.sp - 2 } := by
  have h : s.sp - 1 - 1 = s.sp - 2 := by bv_omega
  unfold State.push16
  rw [State.push8_eq (s.push8 (hi8 w)), State.push8_sp, h]
  generalize (s.push8 (hi8 w)).push8 (lo8 w) = u
  rfl

/-- Reading memory after an address was pushed: high byte above low byte (20_memory.md rule R71). -/
theorem State.memRead_push16 (w a : Addr) :
    (s.push16 w).memRead a =
      if a = stackSlot s 1 then lo8 w else if a = stackSlot s 0 then hi8 w else s.memRead a := by
  have h0 : s.sp - 0 = s.sp := by bv_omega
  simp only [State.push16, State.memRead_push8, State.push8_sp, State.push8_cfg, stackSlot, h0]

/-- The byte a pop returns: the one above the stack pointer. -/
theorem State.popped8_def : s.popped8 = s.memRead (s.cfg.stackBase + zext (s.sp + 1)) := rfl

/-- The address a 16-bit pop returns. -/
theorem State.popped16_def :
    s.popped16 = word (s.memRead (s.cfg.stackBase + zext (s.sp + 2))) (s.memRead (s.cfg.stackBase + zext (s.sp + 1))) := by
  have : s.sp + 1 + 1 = s.sp + 2 := by rw [BitVec.add_assoc]; rfl
  simp only [State.popped16, State.popped8_def, State.pop8_sp, State.pop8_cfg, State.memRead_pop8, this]

/-! ### Interrupt entry -/

/-- Everything interrupt entry does to registers, flags and the rest (60_exceptions.md rule R270). -/
theorem interruptEntry_fields :
    (interruptEntry s).a = s.a ∧ (interruptEntry s).x = s.x ∧ (interruptEntry s).y = s.y ∧
    (interruptEntry s).sp = s.sp - 3 ∧ (interruptEntry s).flags = { s.flags with i := true } ∧
    SameHidden s (interruptEntry s) := by
  have h3 : s.sp - 1 - 1 - 1 = s.sp - 3 := by bv_omega
  simp only [interruptEntry, State.push16, SameHidden, State.withPc_a, State.withPc_x, State.withPc_y, State.withPc_sp,
    State.withPc_flags, State.withPc_trapTable, State.withPc_opCount, State.withPc_listeners, State.withPc_hookTick,
    State.withPc_cfg, State.withFlags_a, State.withFlags_x, State.withFlags_y, State.withFlags_sp, State.withFlags_flags,
    State.withFlags_trapTable, State.withFlags_opCount, State.withFlags_listeners, State.withFlags_hookTick,
    State.withFlags_cfg, State.push8_a, State.push8_x, State.push8_y, State.push8_sp, State.push8_flags,
    State.push8_trapTable, State.push8_opCount, State.push8_listeners, State.push8_hookTick, State.push8_cfg, h3,
    and_self]

/-- Everything interrupt entry does to memory: three stack bytes, and nothing else. -/
theorem interruptEntry_memRead (a : Addr) :
    (interruptEntry s).memRead a =
      if a = stackSlot s 2 then s.flags.pack
      else if a = stackSlot s 1 then lo8 s.pc
      else if a = stackSlot s 0 then hi8 s.pc
      else s.memRead a := by
  have h2 : s.sp - 1 - 1 = s.sp - 2 := by bv_omega
  have h0 : s.sp - 0 = s.sp := by bv_omega
  simp only [interruptEntry, State.push16, State.memRead_withPc, State.memRead_withFlags, State.memRead_push8,
    State.push8_sp, State.push8_cfg, h2, h0, stackSlot]

/-- The vector interrupt entry jumps through: chosen by the live `B`, read after the pushes. -/
theorem interruptEntry_pc :
    (interruptEntry s).pc = (interruptEntry s).memRead16 (if s.flags.b then s.cfg.vecBrk else s.cfg.vecIrq) := by
  unfold interruptEntry
  cases hb : s.flags.b <;> simp [State.memRead16, State.push16, hb]

/-! ### The returns -/

/-- What RTI leaves (45_system.md rule R242). -/
theorem returnFromInterrupt_eq :
    returnFromInterrupt s =
      { s with
        sp := s.sp + 3
        flags := Flags.unpack (s.memRead (s.cfg.stackBase + zext (s.sp + 1)))
        pc := word (s.memRead (s.cfg.stackBase + zext (s.sp + 3))) (s.memRead (s.cfg.stackBase + zext (s.sp + 2))) } := by
  have h3 : s.sp + 1 + 1 + 1 = s.sp + 3 := by bv_omega
  have h3' : s.sp + 1 + 2 = s.sp + 3 := by bv_omega
  have h2 : s.sp + 1 + 1 = s.sp + 2 := by bv_omega
  unfold returnFromInterrupt
  simp only [State.popped16_def, State.popped8_def, State.pop16, State.withFlags_sp, State.withFlags_cfg, State.pop8_sp,
    State.pop8_cfg, State.memRead_withFlags, State.memRead_pop8, h3', h2]
  simp only [State.withPc, State.pop8, State.withSp, State.withFlags, h3]

/-- What RTS leaves (44_control_transfer.md rule R223). -/
theorem returnFromSubroutine_eq :
    returnFromSubroutine s =
      { s with
        sp := s.sp + 2
        pc := word (s.memRead (s.cfg.stackBase + zext (s.sp + 2))) (s.memRead (s.cfg.stackBase + zext (s.sp + 1))) +
          s.cfg.returnBias } := by
  have h2 : s.sp + 1 + 1 = s.sp + 2 := by bv_omega
  unfold returnFromSubroutine
  simp only [State.popped16_def, State.pop16, State.withPc, State.pop8, State.withSp, h2]

/-! ### Events -/

/-- A notification made went to a listener of the list that wants the event, and the event was one of those emitted. -/
theorem mem_notifications {ls : List Listener} {es : List Event} {d : Delivery} (h : d ∈ notifications ls es) :
    d.listener ∈ ls ∧ d.listener.wants d.event = true ∧ d.event ∈ es := by
  cases ls with
  | nil => simp [notifications] at h
  | cons l rest =>
    simp only [notifications, List.mem_flatMap, List.mem_map, List.mem_filter] at h
    obtain ⟨e, he, l', ⟨hl', hw⟩, rfl⟩ := h
    exact ⟨hl', hw, he⟩

/-- With no listener nothing is notified. -/
@[simp] theorem notifications_nil (es : List Event) : notifications [] es = [] := rfl

/-- Events emitted in one sequence are notified as those of its two parts, one after the other. -/
theorem notifications_append (ls : List Listener) (es fs : List Event) :
    notifications ls (es ++ fs) = notifications ls es ++ notifications ls fs := by
  cases ls with
  | nil => rfl
  | cons l rest => exact List.flatMap_append

/-- Different stack slots are different addresses. -/
theorem stackSlot_ne {j k : Byte} (h : j ≠ k) : stackSlot s j ≠ stackSlot s k := by
  rw [stackSlot_def, stackSlot_def, Ne, slot_inj]
  bv_omega

/-- The notifications of pushing an address: high byte, then low byte, each with the byte before. -/
theorem State.push16_delivered (w : Addr) :
    (s.push16 w).delivered = s.delivered ++ notifications s.listeners
      [.memoryChanged (stackSlot s 0) (s.memRead (stackSlot s 0)) (hi8 w),
        .memoryChanged (stackSlot s 1) (s.memRead (stackSlot s 1)) (lo8 w)] := by
  have h : (s.push8 (hi8 w)).stackTop = stackSlot s 1 := rfl
  have hr : (s.push8 (hi8 w)).memRead (stackSlot s 1) = s.memRead (stackSlot s 1) := by
    rw [State.memRead_push8, ← stackSlot_zero, if_neg (stackSlot_ne s (by decide))]
  rw [State.push16, State.push8_delivered, h, hr, State.push8_delivered, State.push8_listeners, List.append_assoc,
    ← notifications_append, State.stackTop_def, ← stackSlot_zero]
  rfl

/-- The notifications of interrupt entry: its three stores in order, each with the byte before. -/
theorem interruptEntry_delivered :
    (interruptEntry s).delivered = s.delivered ++ notifications s.listeners
      [.memoryChanged (stackSlot s 0) (s.memRead (stackSlot s 0)) (hi8 s.pc),
        .memoryChanged (stackSlot s 1) (s.memRead (stackSlot s 1)) (lo8 s.pc),
        .memoryChanged (stackSlot s 2) (s.memRead (stackSlot s 2)) s.flags.pack] := by
  have h : (s.push16 s.pc).stackTop = stackSlot s 2 := by
    rw [State.push16_eq]
    rfl
  have hl : (s.push16 s.pc).listeners = s.listeners := by rw [State.push16_eq]
  have hr : (s.push16 s.pc).memRead (stackSlot s 2) = s.memRead (stackSlot s 2) := by
    rw [State.memRead_push16, if_neg (stackSlot_ne s (by decide)), if_neg (stackSlot_ne s (by decide))]
  rw [interruptEntry, State.withPc_delivered, State.withFlags_delivered, State.push8_delivered, h, hl, hr,
    State.push16_delivered, List.append_assoc, ← notifications_append]
  rfl

theorem deliveriesOk_emit {s : State} (h : s.deliveriesOk) (es : List Event) : (s.emit es).deliveriesOk := by
  intro d hd
  rw [State.emit_delivered, List.mem_append] at hd
  rcases hd with hd | hd
  · exact h d hd
  · exact ⟨(mem_notifications hd).1, (mem_notifications hd).2.1⟩

/-! ### The invariant, operation by operation -/

theorem Inv_emit {s : State} (h : s.Inv) (es : List Event) : (s.emit es).Inv :=
  ⟨h.memory, h.traps, deliveriesOk_emit h.deliveries es⟩

theorem Inv_memWrite {s : State} (h : s.Inv) (a : Addr) (v : Byte) : (s.memWrite a v).Inv :=
  Inv_emit (s := s.withMem (s.mem.write a.toNat v)) ⟨Memory.wf_write h.memory a.isLt v, h.traps, h.deliveries⟩ _

theorem Inv_memWrites {s : State} (h : s.Inv) (ws : List (Addr × Byte)) : (s.memWrites ws).Inv := by
  induction ws generalizing s with
  | nil => exact h
  | cons w rest ih => exact ih (Inv_memWrite h w.1 w.2)

/-- Registers, flags and counters are no part of the invariant. -/
theorem Inv_of_same {s t : State} (h : s.Inv) (hm : t.mem = s.mem) (ht : t.trapTable = s.trapTable)
    (hl : t.listeners = s.listeners) (hd : t.delivered = s.delivered) : t.Inv :=
  ⟨hm ▸ h.memory, ht ▸ h.traps, by
    intro d hd'
    rw [hd] at hd'
    rw [hl]
    exact h.deliveries d hd'⟩

theorem Inv_push8 {s : State} (h : s.Inv) (v : Byte) : (s.push8 v).Inv :=
  Inv_of_same (Inv_memWrite h s.stackTop v) rfl rfl rfl rfl

theorem Inv_interruptEntry {s : State} (h : s.Inv) : (interruptEntry s).Inv :=
  Inv_of_same (Inv_push8 (Inv_push8 (Inv_push8 h (hi8 s.pc)) (lo8 s.pc)) s.flags.pack) rfl rfl rfl rfl

end Sys2Proof.Machine
end

