-- ==== Sys2Proof/Laws/Exec.lean ====
section
/-! SUPPORT. What `exec` answers, said once: the shared operation of the instruction's mnemonic on its operand, always as
a next state. Later proofs split on the 56 mnemonics and cite this instead of unfolding 151 meanings. -/

namespace Sys2Proof.Machine

theorem Inv_jsr {s : State} (h : s.Inv) (op : Addr) : (jsr op s).Inv := by
  have h2 := Inv_push8 (Inv_push8 h (hi8 (s.pc - s.cfg.returnBias))) (lo8 (s.pc - s.cfg.returnBias))
  unfold jsr State.push16
  generalize (s.push8 (hi8 (s.pc - s.cfg.returnBias))).push8 (lo8 (s.pc - s.cfg.returnBias)) = u at *
  exact Inv_of_same h2 rfl rfl rfl rfl

/-- The shared operation of a mnemonic on an operand (the state itself where the mnemonic has no such operand). -/
def operate (mn : Mnemonic) (o : Operand) (s : State) : State :=
  match mn with
  | .lda => (o.source?.map fun src => lda src s).getD s
  | .ldx => (o.source?.map fun src => ldx src s).getD s
  | .ldy => (o.source?.map fun src => ldy src s).getD s
  | .adc => (o.source?.map fun src => adc src s).getD s
  | .sbc => (o.source?.map fun src => sbc src s).getD s
  | .and => (o.source?.map fun src => andA src s).getD s
  | .ora => (o.source?.map fun src => oraA src s).getD s
  | .eor => (o.source?.map fun src => eorA src s).getD s
  | .bit => (o.source?.map fun src => bitTest src s).getD s
  | .cmp => (o.source?.map fun src => cmp src s).getD s
  | .cpx => (o.source?.map fun src => cpx src s).getD s
  | .cpy => (o.source?.map fun src => cpy src s).getD s
  | .sta => (o.mem?.map fun m => sta m s).getD s
  | .stx => (o.mem?.map fun m => stx m s).getD s
  | .sty => (o.mem?.map fun m => sty m s).getD s
  | .inc => (o.mem?.map fun m => incMem m s).getD s
  | .dec => (o.mem?.map fun m => decMem m s).getD s
  | .asl => (o.place?.map fun p => modifyInPlace p shiftAsl s).getD s
  | .lsr => (o.place?.map fun p => modifyInPlace p shiftLsr s).getD s
  | .rol => (o.place?.map fun p => modifyInPlace p shiftRol s).getD s
  | .ror => (o.place?.map fun p => modifyInPlace p shiftRor s).getD s
  | .tax => (s.withX s.a).setNZ s.a
  | .tay => (s.withY s.a).setNZ s.a
  | .txa => (s.withA s.x).setNZ s.x
  | .tya => (s.withA s.y).setNZ s.y
  | .tsx => (s.withX s.sp).setNZ s.sp
  | .txs => s.withSp s.x
  | .inx => (s.withX (s.x + 1)).setNZ (s.x + 1)
  | .iny => (s.withY (s.y + 1)).setNZ (s.y + 1)
  | .dex => (s.withX (s.x - 1)).setNZ (s.x - 1)
  | .dey => (s.withY (s.y - 1)).setNZ (s.y - 1)
  | .pha => s.push8 s.a
  | .php => s.push8 s.flags.pack
  | .pla => (s.pop8.withA s.popped8).setNZ s.popped8
  | .plp => s.pop8.withFlags (Flags.unpack s.popped8)
  | .clc => s.withFlags { s.flags with c := false }
  | .sec => s.withFlags { s.flags with c := true }
  | .cli => s.withFlags { s.flags with i := false }
  | .sei => s.withFlags { s.flags with i := true }
  | .cld => s.withFlags { s.flags with d := false }
  | .sed => s.withFlags { s.flags with d := true }
  | .clv => s.withFlags { s.flags with v := false }
  | .rts => returnFromSubroutine s
  | .bcc => (match o with | .rel op => branch (!s.flags.c) op s | _ => s)
  | .bcs => (match o with | .rel op => branch s.flags.c op s | _ => s)
  | .beq => (match o with | .rel op => branch s.flags.z op s | _ => s)
  | .bne => (match o with | .rel op => branch (!s.flags.z) op s | _ => s)
  | .bmi => (match o with | .rel op => branch s.flags.n op s | _ => s)
  | .bpl => (match o with | .rel op => branch (!s.flags.n) op s | _ => s)
  | .bvc => (match o with | .rel op => branch (!s.flags.v) op s | _ => s)
  | .bvs => (match o with | .rel op => branch s.flags.v op s | _ => s)
  | .nop => s
  | .brk => brk s
  | .rti => returnFromInterrupt s
  | .jmp => (match o with | .mem (.abs op) => s.withPc op | .ind op => s.withPc (s.memRead16 op) | _ => s)
  | .jsr => (match o with | .mem (.abs op) => jsr op s | _ => s)

/-- Every instruction completes, with the shared operation of its mnemonic on its operand. -/
theorem exec_eq_operate (i : Instr) (s : State) : exec i s = .next (operate i.mnemonic i.operand s) := by
  cases i <;>
    first
    | rfl
    | (simp only [Instr.operand, Instr.mnemonic, Instr.mode, Instr.opValue, Instr.parts, Operand.ofMode, lo8_zext]; rfl)

/-! ### What every instruction keeps -/

/-- No instruction touches what a program cannot read. -/
theorem operate_hidden (mn : Mnemonic) (o : Operand) (s : State) : SameHidden s (operate mn o s) := by
  cases mn <;> simp only [operate]
  case brk => exact (interruptEntry_fields _).2.2.2.2.2
  case lda | ldx | ldy | adc | sbc | and | ora | eor | bit | cmp | cpx | cpy =>
    cases o.source? <;> exact ⟨rfl, rfl, rfl, rfl, rfl⟩
  case sta | stx | sty | inc | dec => cases o.mem? <;> exact ⟨rfl, rfl, rfl, rfl, rfl⟩
  case asl | lsr | rol | ror => rcases o.place? with _ | (_ | _) <;> exact ⟨rfl, rfl, rfl, rfl, rfl⟩
  case bcc | bcs | beq | bne | bmi | bpl | bvc | bvs =>
    unfold branch
    split <;> (try split) <;> exact ⟨rfl, rfl, rfl, rfl, rfl⟩
  case jmp => split <;> exact ⟨rfl, rfl, rfl, rfl, rfl⟩
  case jsr => split <;> simp [SameHidden, jsr, State.push16]
  all_goals exact ⟨rfl, rfl, rfl, rfl, rfl⟩

/-- Every instruction keeps the invariant. -/
theorem Inv_operate {s : State} (h : s.Inv) (mn : Mnemonic) (o : Operand) : (operate mn o s).Inv := by
  cases mn <;> simp only [operate]
  case brk => exact Inv_interruptEntry (Inv_of_same h rfl rfl rfl rfl)
  case pha | php => exact Inv_push8 h _
  case lda | ldx | ldy | adc | sbc | and | ora | eor | bit | cmp | cpx | cpy =>
    cases o.source? <;> first | exact h | exact Inv_of_same h rfl rfl rfl rfl
  case sta | stx | sty =>
    cases o.mem? with
    | none => exact h
    | some m => exact Inv_memWrite h _ _
  case inc | dec =>
    cases o.mem? with
    | none => exact h
    | some m => exact Inv_of_same (Inv_memWrite h _ _) rfl rfl rfl rfl
  case asl | lsr | rol | ror =>
    rcases o.place? with _ | (_ | _)
    · exact h
    · exact Inv_of_same h rfl rfl rfl rfl
    · exact Inv_of_same (Inv_memWrite h _ _) rfl rfl rfl rfl
  case bcc | bcs | beq | bne | bmi | bpl | bvc | bvs =>
    unfold branch
    split <;> (try split) <;> first | exact h | exact Inv_of_same h rfl rfl rfl rfl
  case jmp => split <;> first | exact h | exact Inv_of_same h rfl rfl rfl rfl
  case jsr =>
    split
    · exact Inv_jsr h _
    · exact h
  all_goals first | exact h | exact Inv_of_same h rfl rfl rfl rfl

end Sys2Proof.Machine
end

