-- ==== Sys2Proof/Laws/PerInstr.lean ====
section
/-! SUPPORT. Per-instruction lemmas: every instruction is well formed, its encoding has its length, and the length is
that of its mode (30_encoding.md rules R90 and R91). -/

namespace Sys2Proof.Laws.WellFormed

/-- The instruction is well formed, its encoding is as long as rule R90 says, its operand is that of its mode, and
its row of the table with its operand value gives it back. -/
def Statement (i : Instr) : Prop :=
  i.wf = true ∧ (encode i).length = i.length ∧ i.operand.parts = (i.mode, i.opValue) ∧
    Instr.ofParts i.mnemonic i.mode i.opValue = some i

theorem ldaImm (op : Byte) : Statement (.ldaImm op) := ⟨rfl, rfl, congrArg (fun b => (Mode.imm, zext b)) (lo8_zext op),
  congrArg (fun b => some (Instr.ldaImm b)) (lo8_zext op)⟩
theorem ldaZp (op : Byte) : Statement (.ldaZp op) := ⟨rfl, rfl, congrArg (fun b => (Mode.zp, zext b)) (lo8_zext op),
  congrArg (fun b => some (Instr.ldaZp b)) (lo8_zext op)⟩
theorem ldaZpx (op : Byte) : Statement (.ldaZpx op) := ⟨rfl, rfl, congrArg (fun b => (Mode.zpx, zext b)) (lo8_zext op),
  congrArg (fun b => some (Instr.ldaZpx b)) (lo8_zext op)⟩
theorem ldaAbs (op : Addr) : Statement (.ldaAbs op) := ⟨rfl, rfl, rfl, rfl⟩
theorem ldaAbsx (op : Addr) : Statement (.ldaAbsx op) := ⟨rfl, rfl, rfl, rfl⟩
theorem ldaAbsy (op : Addr) : Statement (.ldaAbsy op) := ⟨rfl, rfl, rfl, rfl⟩
theorem ldaIndx (op : Byte) : Statement (.ldaIndx op) := ⟨rfl, rfl, congrArg (fun b => (Mode.indx, zext b)) (lo8_zext op),
  congrArg (fun b => some (Instr.ldaIndx b)) (lo8_zext op)⟩
theorem ldaIndy (op : Byte) : Statement (.ldaIndy op) := ⟨rfl, rfl, congrArg (fun b => (Mode.indy, zext b)) (lo8_zext op),
  congrArg (fun b => some (Instr.ldaIndy b)) (lo8_zext op)⟩
theorem ldxImm (op : Byte) : Statement (.ldxImm op) := ⟨rfl, rfl, congrArg (fun b => (Mode.imm, zext b)) (lo8_zext op),
  congrArg (fun b => some (Instr.ldxImm b)) (lo8_zext op)⟩
theorem ldxZp (op : Byte) : Statement (.ldxZp op) := ⟨rfl, rfl, congrArg (fun b => (Mode.zp, zext b)) (lo8_zext op),
  congrArg (fun b => some (Instr.ldxZp b)) (lo8_zext op)⟩
theorem ldxZpy (op : Byte) : Statement (.ldxZpy op) := ⟨rfl, rfl, congrArg (fun b => (Mode.zpy, zext b)) (lo8_zext op),
  congrArg (fun b => some (Instr.ldxZpy b)) (lo8_zext op)⟩
theorem ldxAbs (op : Addr) : Statement (.ldxAbs op) := ⟨rfl, rfl, rfl, rfl⟩
theorem ldxAbsy (op : Addr) : Statement (.ldxAbsy op) := ⟨rfl, rfl, rfl, rfl⟩
theorem ldyImm (op : Byte) : Statement (.ldyImm op) := ⟨rfl, rfl, congrArg (fun b => (Mode.imm, zext b)) (lo8_zext op),
  congrArg (fun b => some (Instr.ldyImm b)) (lo8_zext op)⟩
theorem ldyZp (op : Byte) : Statement (.ldyZp op) := ⟨rfl, rfl, congrArg (fun b => (Mode.zp, zext b)) (lo8_zext op),
  congrArg (fun b => some (Instr.ldyZp b)) (lo8_zext op)⟩
theorem ldyZpx (op : Byte) : Statement (.ldyZpx op) := ⟨rfl, rfl, congrArg (fun b => (Mode.zpx, zext b)) (lo8_zext op),
  congrArg (fun b => some (Instr.ldyZpx b)) (lo8_zext op)⟩
theorem ldyAbs (op : Addr) : Statement (.ldyAbs op) := ⟨rfl, rfl, rfl, rfl⟩
theorem ldyAbsx (op : Addr) : Statement (.ldyAbsx op) := ⟨rfl, rfl, rfl, rfl⟩
theorem staZp (op : Byte) : Statement (.staZp op) := ⟨rfl, rfl, congrArg (fun b => (Mode.zp, zext b)) (lo8_zext op),
  congrArg (fun b => some (Instr.staZp b)) (lo8_zext op)⟩
theorem staZpx (op : Byte) : Statement (.staZpx op) := ⟨rfl, rfl, congrArg (fun b => (Mode.zpx, zext b)) (lo8_zext op),
  congrArg (fun b => some (Instr.staZpx b)) (lo8_zext op)⟩
theorem staAbs (op : Addr) : Statement (.staAbs op) := ⟨rfl, rfl, rfl, rfl⟩
theorem staAbsx (op : Addr) : Statement (.staAbsx op) := ⟨rfl, rfl, rfl, rfl⟩
theorem staAbsy (op : Addr) : Statement (.staAbsy op) := ⟨rfl, rfl, rfl, rfl⟩
theorem staIndx (op : Byte) : Statement (.staIndx op) := ⟨rfl, rfl, congrArg (fun b => (Mode.indx, zext b)) (lo8_zext op),
  congrArg (fun b => some (Instr.staIndx b)) (lo8_zext op)⟩
theorem staIndy (op : Byte) : Statement (.staIndy op) := ⟨rfl, rfl, congrArg (fun b => (Mode.indy, zext b)) (lo8_zext op),
  congrArg (fun b => some (Instr.staIndy b)) (lo8_zext op)⟩
theorem stxZp (op : Byte) : Statement (.stxZp op) := ⟨rfl, rfl, congrArg (fun b => (Mode.zp, zext b)) (lo8_zext op),
  congrArg (fun b => some (Instr.stxZp b)) (lo8_zext op)⟩
theorem stxZpy (op : Byte) : Statement (.stxZpy op) := ⟨rfl, rfl, congrArg (fun b => (Mode.zpy, zext b)) (lo8_zext op),
  congrArg (fun b => some (Instr.stxZpy b)) (lo8_zext op)⟩
theorem stxAbs (op : Addr) : Statement (.stxAbs op) := ⟨rfl, rfl, rfl, rfl⟩
theorem styZp (op : Byte) : Statement (.styZp op) := ⟨rfl, rfl, congrArg (fun b => (Mode.zp, zext b)) (lo8_zext op),
  congrArg (fun b => some (Instr.styZp b)) (lo8_zext op)⟩
theorem styZpx (op : Byte) : Statement (.styZpx op) := ⟨rfl, rfl, congrArg (fun b => (Mode.zpx, zext b)) (lo8_zext op),
  congrArg (fun b => some (Instr.styZpx b)) (lo8_zext op)⟩
theorem styAbs (op : Addr) : Statement (.styAbs op) := ⟨rfl, rfl, rfl, rfl⟩
theorem tax : Statement .tax := ⟨rfl, rfl, rfl, rfl⟩
theorem tay : Statement .tay := ⟨rfl, rfl, rfl, rfl⟩
theorem txa : Statement .txa := ⟨rfl, rfl, rfl, rfl⟩
theorem tya : Statement .tya := ⟨rfl, rfl, rfl, rfl⟩
theorem tsx : Statement .tsx := ⟨rfl, rfl, rfl, rfl⟩
theorem txs : Statement .txs := ⟨rfl, rfl, rfl, rfl⟩
theorem adcImm (op : Byte) : Statement (.adcImm op) := ⟨rfl, rfl, congrArg (fun b => (Mode.imm, zext b)) (lo8_zext op),
  congrArg (fun b => some (Instr.adcImm b)) (lo8_zext op)⟩
theorem adcZp (op : Byte) : Statement (.adcZp op) := ⟨rfl, rfl, congrArg (fun b => (Mode.zp, zext b)) (lo8_zext op),
  congrArg (fun b => some (Instr.adcZp b)) (lo8_zext op)⟩
theorem adcZpx (op : Byte) : Statement (.adcZpx op) := ⟨rfl, rfl, congrArg (fun b => (Mode.zpx, zext b)) (lo8_zext op),
  congrArg (fun b => some (Instr.adcZpx b)) (lo8_zext op)⟩
theorem adcAbs (op : Addr) : Statement (.adcAbs op) := ⟨rfl, rfl, rfl, rfl⟩
theorem adcAbsx (op : Addr) : Statement (.adcAbsx op) := ⟨rfl, rfl, rfl, rfl⟩
theorem adcAbsy (op : Addr) : Statement (.adcAbsy op) := ⟨rfl, rfl, rfl, rfl⟩
theorem adcIndx (op : Byte) : Statement (.adcIndx op) := ⟨rfl, rfl, congrArg (fun b => (Mode.indx, zext b)) (lo8_zext op),
  congrArg (fun b => some (Instr.adcIndx b)) (lo8_zext op)⟩
theorem adcIndy (op : Byte) : Statement (.adcIndy op) := ⟨rfl, rfl, congrArg (fun b => (Mode.indy, zext b)) (lo8_zext op),
  congrArg (fun b => some (Instr.adcIndy b)) (lo8_zext op)⟩
theorem sbcImm (op : Byte) : Statement (.sbcImm op) := ⟨rfl, rfl, congrArg (fun b => (Mode.imm, zext b)) (lo8_zext op),
  congrArg (fun b => some (Instr.sbcImm b)) (lo8_zext op)⟩
theorem sbcZp (op : Byte) : Statement (.sbcZp op) := ⟨rfl, rfl, congrArg (fun b => (Mode.zp, zext b)) (lo8_zext op),
  congrArg (fun b => some (Instr.sbcZp b)) (lo8_zext op)⟩
theorem sbcZpx (op : Byte) : Statement (.sbcZpx op) := ⟨rfl, rfl, congrArg (fun b => (Mode.zpx, zext b)) (lo8_zext op),
  congrArg (fun b => some (Instr.sbcZpx b)) (lo8_zext op)⟩
theorem sbcAbs (op : Addr) : Statement (.sbcAbs op) := ⟨rfl, rfl, rfl, rfl⟩
theorem sbcAbsx (op : Addr) : Statement (.sbcAbsx op) := ⟨rfl, rfl, rfl, rfl⟩
theorem sbcAbsy (op : Addr) : Statement (.sbcAbsy op) := ⟨rfl, rfl, rfl, rfl⟩
theorem sbcIndx (op : Byte) : Statement (.sbcIndx op) := ⟨rfl, rfl, congrArg (fun b => (Mode.indx, zext b)) (lo8_zext op),
  congrArg (fun b => some (Instr.sbcIndx b)) (lo8_zext op)⟩
theorem sbcIndy (op : Byte) : Statement (.sbcIndy op) := ⟨rfl, rfl, congrArg (fun b => (Mode.indy, zext b)) (lo8_zext op),
  congrArg (fun b => some (Instr.sbcIndy b)) (lo8_zext op)⟩
theorem andImm (op : Byte) : Statement (.andImm op) := ⟨rfl, rfl, congrArg (fun b => (Mode.imm, zext b)) (lo8_zext op),
  congrArg (fun b => some (Instr.andImm b)) (lo8_zext op)⟩
theorem andZp (op : Byte) : Statement (.andZp op) := ⟨rfl, rfl, congrArg (fun b => (Mode.zp, zext b)) (lo8_zext op),
  congrArg (fun b => some (Instr.andZp b)) (lo8_zext op)⟩
theorem andZpx (op : Byte) : Statement (.andZpx op) := ⟨rfl, rfl, congrArg (fun b => (Mode.zpx, zext b)) (lo8_zext op),
  congrArg (fun b => some (Instr.andZpx b)) (lo8_zext op)⟩
theorem andAbs (op : Addr) : Statement (.andAbs op) := ⟨rfl, rfl, rfl, rfl⟩
theorem andAbsx (op : Addr) : Statement (.andAbsx op) := ⟨rfl, rfl, rfl, rfl⟩
theorem andAbsy (op : Addr) : Statement (.andAbsy op) := ⟨rfl, rfl, rfl, rfl⟩
theorem andIndx (op : Byte) : Statement (.andIndx op) := ⟨rfl, rfl, congrArg (fun b => (Mode.indx, zext b)) (lo8_zext op),
  congrArg (fun b => some (Instr.andIndx b)) (lo8_zext op)⟩
theorem andIndy (op : Byte) : Statement (.andIndy op) := ⟨rfl, rfl, congrArg (fun b => (Mode.indy, zext b)) (lo8_zext op),
  congrArg (fun b => some (Instr.andIndy b)) (lo8_zext op)⟩
theorem oraImm (op : Byte) : Statement (.oraImm op) := ⟨rfl, rfl, congrArg (fun b => (Mode.imm, zext b)) (lo8_zext op),
  congrArg (fun b => some (Instr.oraImm b)) (lo8_zext op)⟩
theorem oraZp (op : Byte) : Statement (.oraZp op) := ⟨rfl, rfl, congrArg (fun b => (Mode.zp, zext b)) (lo8_zext op),
  congrArg (fun b => some (Instr.oraZp b)) (lo8_zext op)⟩
theorem oraZpx (op : Byte) : Statement (.oraZpx op) := ⟨rfl, rfl, congrArg (fun b => (Mode.zpx, zext b)) (lo8_zext op),
  congrArg (fun b => some (Instr.oraZpx b)) (lo8_zext op)⟩
theorem oraAbs (op : Addr) : Statement (.oraAbs op) := ⟨rfl, rfl, rfl, rfl⟩
theorem oraAbsx (op : Addr) : Statement (.oraAbsx op) := ⟨rfl, rfl, rfl, rfl⟩
theorem oraAbsy (op : Addr) : Statement (.oraAbsy op) := ⟨rfl, rfl, rfl, rfl⟩
theorem oraIndx (op : Byte) : Statement (.oraIndx op) := ⟨rfl, rfl, congrArg (fun b => (Mode.indx, zext b)) (lo8_zext op),
  congrArg (fun b => some (Instr.oraIndx b)) (lo8_zext op)⟩
theorem oraIndy (op : Byte) : Statement (.oraIndy op) := ⟨rfl, rfl, congrArg (fun b => (Mode.indy, zext b)) (lo8_zext op),
  congrArg (fun b => some (Instr.oraIndy b)) (lo8_zext op)⟩
theorem eorImm (op : Byte) : Statement (.eorImm op) := ⟨rfl, rfl, congrArg (fun b => (Mode.imm, zext b)) (lo8_zext op),
  congrArg (fun b => some (Instr.eorImm b)) (lo8_zext op)⟩
theorem eorZp (op : Byte) : Statement (.eorZp op) := ⟨rfl, rfl, congrArg (fun b => (Mode.zp, zext b)) (lo8_zext op),
  congrArg (fun b => some (Instr.eorZp b)) (lo8_zext op)⟩
theorem eorZpx (op : Byte) : Statement (.eorZpx op) := ⟨rfl, rfl, congrArg (fun b => (Mode.zpx, zext b)) (lo8_zext op),
  congrArg (fun b => some (Instr.eorZpx b)) (lo8_zext op)⟩
theorem eorAbs (op : Addr) : Statement (.eorAbs op) := ⟨rfl, rfl, rfl, rfl⟩
theorem eorAbsx (op : Addr) : Statement (.eorAbsx op) := ⟨rfl, rfl, rfl, rfl⟩
theorem eorAbsy (op : Addr) : Statement (.eorAbsy op) := ⟨rfl, rfl, rfl, rfl⟩
theorem eorIndx (op : Byte) : Statement (.eorIndx op) := ⟨rfl, rfl, congrArg (fun b => (Mode.indx, zext b)) (lo8_zext op),
  congrArg (fun b => some (Instr.eorIndx b)) (lo8_zext op)⟩
theorem eorIndy (op : Byte) : Statement (.eorIndy op) := ⟨rfl, rfl, congrArg (fun b => (Mode.indy, zext b)) (lo8_zext op),
  congrArg (fun b => some (Instr.eorIndy b)) (lo8_zext op)⟩
theorem bitZp (op : Byte) : Statement (.bitZp op) := ⟨rfl, rfl, congrArg (fun b => (Mode.zp, zext b)) (lo8_zext op),
  congrArg (fun b => some (Instr.bitZp b)) (lo8_zext op)⟩
theorem bitAbs (op : Addr) : Statement (.bitAbs op) := ⟨rfl, rfl, rfl, rfl⟩
theorem cmpImm (op : Byte) : Statement (.cmpImm op) := ⟨rfl, rfl, congrArg (fun b => (Mode.imm, zext b)) (lo8_zext op),
  congrArg (fun b => some (Instr.cmpImm b)) (lo8_zext op)⟩
theorem cmpZp (op : Byte) : Statement (.cmpZp op) := ⟨rfl, rfl, congrArg (fun b => (Mode.zp, zext b)) (lo8_zext op),
  congrArg (fun b => some (Instr.cmpZp b)) (lo8_zext op)⟩
theorem cmpZpx (op : Byte) : Statement (.cmpZpx op) := ⟨rfl, rfl, congrArg (fun b => (Mode.zpx, zext b)) (lo8_zext op),
  congrArg (fun b => some (Instr.cmpZpx b)) (lo8_zext op)⟩
theorem cmpAbs (op : Addr) : Statement (.cmpAbs op) := ⟨rfl, rfl, rfl, rfl⟩
theorem cmpAbsx (op : Addr) : Statement (.cmpAbsx op) := ⟨rfl, rfl, rfl, rfl⟩
theorem cmpAbsy (op : Addr) : Statement (.cmpAbsy op) := ⟨rfl, rfl, rfl, rfl⟩
theorem cmpIndx (op : Byte) : Statement (.cmpIndx op) := ⟨rfl, rfl, congrArg (fun b => (Mode.indx, zext b)) (lo8_zext op),
  congrArg (fun b => some (Instr.cmpIndx b)) (lo8_zext op)⟩
theorem cmpIndy (op : Byte) : Statement (.cmpIndy op) := ⟨rfl, rfl, congrArg (fun b => (Mode.indy, zext b)) (lo8_zext op),
  congrArg (fun b => some (Instr.cmpIndy b)) (lo8_zext op)⟩
theorem cpxImm (op : Byte) : Statement (.cpxImm op) := ⟨rfl, rfl, congrArg (fun b => (Mode.imm, zext b)) (lo8_zext op),
  congrArg (fun b => some (Instr.cpxImm b)) (lo8_zext op)⟩
theorem cpxZp (op : Byte) : Statement (.cpxZp op) := ⟨rfl, rfl, congrArg (fun b => (Mode.zp, zext b)) (lo8_zext op),
  congrArg (fun b => some (Instr.cpxZp b)) (lo8_zext op)⟩
theorem cpxAbs (op : Addr) : Statement (.cpxAbs op) := ⟨rfl, rfl, rfl, rfl⟩
theorem cpyImm (op : Byte) : Statement (.cpyImm op) := ⟨rfl, rfl, congrArg (fun b => (Mode.imm, zext b)) (lo8_zext op),
  congrArg (fun b => some (Instr.cpyImm b)) (lo8_zext op)⟩
theorem cpyZp (op : Byte) : Statement (.cpyZp op) := ⟨rfl, rfl, congrArg (fun b => (Mode.zp, zext b)) (lo8_zext op),
  congrArg (fun b => some (Instr.cpyZp b)) (lo8_zext op)⟩
theorem cpyAbs (op : Addr) : Statement (.cpyAbs op) := ⟨rfl, rfl, rfl, rfl⟩
theorem incZp (op : Byte) : Statement (.incZp op) := ⟨rfl, rfl, congrArg (fun b => (Mode.zp, zext b)) (lo8_zext op),
  congrArg (fun b => some (Instr.incZp b)) (lo8_zext op)⟩
theorem incZpx (op : Byte) : Statement (.incZpx op) := ⟨rfl, rfl, congrArg (fun b => (Mode.zpx, zext b)) (lo8_zext op),
  congrArg (fun b => some (Instr.incZpx b)) (lo8_zext op)⟩
theorem incAbs (op : Addr) : Statement (.incAbs op) := ⟨rfl, rfl, rfl, rfl⟩
theorem incAbsx (op : Addr) : Statement (.incAbsx op) := ⟨rfl, rfl, rfl, rfl⟩
theorem decZp (op : Byte) : Statement (.decZp op) := ⟨rfl, rfl, congrArg (fun b => (Mode.zp, zext b)) (lo8_zext op),
  congrArg (fun b => some (Instr.decZp b)) (lo8_zext op)⟩
theorem decZpx (op : Byte) : Statement (.decZpx op) := ⟨rfl, rfl, congrArg (fun b => (Mode.zpx, zext b)) (lo8_zext op),
  congrArg (fun b => some (Instr.decZpx b)) (lo8_zext op)⟩
theorem decAbs (op : Addr) : Statement (.decAbs op) := ⟨rfl, rfl, rfl, rfl⟩
theorem decAbsx (op : Addr) : Statement (.decAbsx op) := ⟨rfl, rfl, rfl, rfl⟩
theorem inx : Statement .inx := ⟨rfl, rfl, rfl, rfl⟩
theorem iny : Statement .iny := ⟨rfl, rfl, rfl, rfl⟩
theorem dex : Statement .dex := ⟨rfl, rfl, rfl, rfl⟩
theorem dey : Statement .dey := ⟨rfl, rfl, rfl, rfl⟩
theorem aslAcc : Statement .aslAcc := ⟨rfl, rfl, rfl, rfl⟩
theorem aslZp (op : Byte) : Statement (.aslZp op) := ⟨rfl, rfl, congrArg (fun b => (Mode.zp, zext b)) (lo8_zext op),
  congrArg (fun b => some (Instr.aslZp b)) (lo8_zext op)⟩
theorem aslZpx (op : Byte) : Statement (.aslZpx op) := ⟨rfl, rfl, congrArg (fun b => (Mode.zpx, zext b)) (lo8_zext op),
  congrArg (fun b => some (Instr.aslZpx b)) (lo8_zext op)⟩
theorem aslAbs (op : Addr) : Statement (.aslAbs op) := ⟨rfl, rfl, rfl, rfl⟩
theorem aslAbsx (op : Addr) : Statement (.aslAbsx op) := ⟨rfl, rfl, rfl, rfl⟩
theorem lsrAcc : Statement .lsrAcc := ⟨rfl, rfl, rfl, rfl⟩
theorem lsrZp (op : Byte) : Statement (.lsrZp op) := ⟨rfl, rfl, congrArg (fun b => (Mode.zp, zext b)) (lo8_zext op),
  congrArg (fun b => some (Instr.lsrZp b)) (lo8_zext op)⟩
theorem lsrZpx (op : Byte) : Statement (.lsrZpx op) := ⟨rfl, rfl, congrArg (fun b => (Mode.zpx, zext b)) (lo8_zext op),
  congrArg (fun b => some (Instr.lsrZpx b)) (lo8_zext op)⟩
theorem lsrAbs (op : Addr) : Statement (.lsrAbs op) := ⟨rfl, rfl, rfl, rfl⟩
theorem lsrAbsx (op : Addr) : Statement (.lsrAbsx op) := ⟨rfl, rfl, rfl, rfl⟩
theorem rolAcc : Statement .rolAcc := ⟨rfl, rfl, rfl, rfl⟩
theorem rolZp (op : Byte) : Statement (.rolZp op) := ⟨rfl, rfl, congrArg (fun b => (Mode.zp, zext b)) (lo8_zext op),
  congrArg (fun b => some (Instr.rolZp b)) (lo8_zext op)⟩
theorem rolZpx (op : Byte) : Statement (.rolZpx op) := ⟨rfl, rfl, congrArg (fun b => (Mode.zpx, zext b)) (lo8_zext op),
  congrArg (fun b => some (Instr.rolZpx b)) (lo8_zext op)⟩
theorem rolAbs (op : Addr) : Statement (.rolAbs op) := ⟨rfl, rfl, rfl, rfl⟩
theorem rolAbsx (op : Addr) : Statement (.rolAbsx op) := ⟨rfl, rfl, rfl, rfl⟩
theorem rorAcc : Statement .rorAcc := ⟨rfl, rfl, rfl, rfl⟩
theorem rorZp (op : Byte) : Statement (.rorZp op) := ⟨rfl, rfl, congrArg (fun b => (Mode.zp, zext b)) (lo8_zext op),
  congrArg (fun b => some (Instr.rorZp b)) (lo8_zext op)⟩
theorem rorZpx (op : Byte) : Statement (.rorZpx op) := ⟨rfl, rfl, congrArg (fun b => (Mode.zpx, zext b)) (lo8_zext op),
  congrArg (fun b => some (Instr.rorZpx b)) (lo8_zext op)⟩
theorem rorAbs (op : Addr) : Statement (.rorAbs op) := ⟨rfl, rfl, rfl, rfl⟩
theorem rorAbsx (op : Addr) : Statement (.rorAbsx op) := ⟨rfl, rfl, rfl, rfl⟩
theorem pha : Statement .pha := ⟨rfl, rfl, rfl, rfl⟩
theorem php : Statement .php := ⟨rfl, rfl, rfl, rfl⟩
theorem pla : Statement .pla := ⟨rfl, rfl, rfl, rfl⟩
theorem plp : Statement .plp := ⟨rfl, rfl, rfl, rfl⟩
theorem clc : Statement .clc := ⟨rfl, rfl, rfl, rfl⟩
theorem sec : Statement .sec := ⟨rfl, rfl, rfl, rfl⟩
theorem cli : Statement .cli := ⟨rfl, rfl, rfl, rfl⟩
theorem sei : Statement .sei := ⟨rfl, rfl, rfl, rfl⟩
theorem cld : Statement .cld := ⟨rfl, rfl, rfl, rfl⟩
theorem sed : Statement .sed := ⟨rfl, rfl, rfl, rfl⟩
theorem clv : Statement .clv := ⟨rfl, rfl, rfl, rfl⟩
theorem jmpAbs (op : Addr) : Statement (.jmpAbs op) := ⟨rfl, rfl, rfl, rfl⟩
theorem jmpInd (op : Addr) : Statement (.jmpInd op) := ⟨rfl, rfl, rfl, rfl⟩
theorem jsr (op : Addr) : Statement (.jsr op) := ⟨rfl, rfl, rfl, rfl⟩
theorem rts : Statement .rts := ⟨rfl, rfl, rfl, rfl⟩
theorem bcc (op : Byte) : Statement (.bcc op) := ⟨rfl, rfl, congrArg (fun b => (Mode.rel, zext b)) (lo8_zext op),
  congrArg (fun b => some (Instr.bcc b)) (lo8_zext op)⟩
theorem bcs (op : Byte) : Statement (.bcs op) := ⟨rfl, rfl, congrArg (fun b => (Mode.rel, zext b)) (lo8_zext op),
  congrArg (fun b => some (Instr.bcs b)) (lo8_zext op)⟩
theorem beq (op : Byte) : Statement (.beq op) := ⟨rfl, rfl, congrArg (fun b => (Mode.rel, zext b)) (lo8_zext op),
  congrArg (fun b => some (Instr.beq b)) (lo8_zext op)⟩
theorem bne (op : Byte) : Statement (.bne op) := ⟨rfl, rfl, congrArg (fun b => (Mode.rel, zext b)) (lo8_zext op),
  congrArg (fun b => some (Instr.bne b)) (lo8_zext op)⟩
theorem bmi (op : Byte) : Statement (.bmi op) := ⟨rfl, rfl, congrArg (fun b => (Mode.rel, zext b)) (lo8_zext op),
  congrArg (fun b => some (Instr.bmi b)) (lo8_zext op)⟩
theorem bpl (op : Byte) : Statement (.bpl op) := ⟨rfl, rfl, congrArg (fun b => (Mode.rel, zext b)) (lo8_zext op),
  congrArg (fun b => some (Instr.bpl b)) (lo8_zext op)⟩
theorem bvc (op : Byte) : Statement (.bvc op) := ⟨rfl, rfl, congrArg (fun b => (Mode.rel, zext b)) (lo8_zext op),
  congrArg (fun b => some (Instr.bvc b)) (lo8_zext op)⟩
theorem bvs (op : Byte) : Statement (.bvs op) := ⟨rfl, rfl, congrArg (fun b => (Mode.rel, zext b)) (lo8_zext op),
  congrArg (fun b => some (Instr.bvs b)) (lo8_zext op)⟩
theorem nop : Statement .nop := ⟨rfl, rfl, rfl, rfl⟩
theorem brk : Statement .brk := ⟨rfl, rfl, rfl, rfl⟩
theorem rti : Statement .rti := ⟨rfl, rfl, rfl, rfl⟩

end Sys2Proof.Laws.WellFormed
end

