-- ==== Sys2Proof/Laws/Trap.lean ====
section
/-! SUPPORT. The registry as a map, and what a hook's effect and a trap visit can do, said once. -/

namespace Sys2Proof.Machine

/-! ### The registry -/

@[simp] theorem HostRoutine.trap_hook (r : HostRoutine) : r.trap.hook = r.execute := rfl

/-- A routine that names no end-with has return-from-subroutine (60_exceptions.md rule R280). -/
@[simp] theorem HostRoutine.trap_endWith_default (onLoad : Option Nat) (execute : Nat) :
    (HostRoutine.mk onLoad execute none).trap.endWith = .rts := rfl

@[simp] theorem HostRoutine.trap_endWith_given (onLoad : Option Nat) (execute : Nat) (e : EndWith) :
    (HostRoutine.mk onLoad execute (some e)).trap.endWith = e := rfl

/-- Looking up after a registration: the new entry at its address, the old entries elsewhere. -/
theorem trapAt_trapInsert (table : TrapTable) (a b : Addr) (t : Trap) :
    trapAt (trapInsert table a t) b = if b = a then some t else trapAt table b := by
  induction table with
  | nil => simp [trapInsert, trapAt]
  | cons e rest ih =>
    obtain ⟨k, u⟩ := e
    simp only [trapInsert]
    split
    · simp [trapAt]
    · split
      · rename_i h; subst h
        simp only [trapAt]
        split <;> rfl
      · simp only [trapAt, ih]
        by_cases h1 : b = k <;> by_cases h2 : b = a <;> simp_all

/-- After an erasure nothing is registered at the address. -/
theorem trapAt_trapErase (table : TrapTable) (a : Addr) : trapAt (trapErase table a) a = none := by
  unfold trapErase
  induction table with
  | nil => rfl
  | cons e rest ih =>
    rw [List.filter_cons]
    split
    · rename_i h
      have : a ≠ e.1 := fun h' => by simp [h'] at h
      rw [trapAt, if_neg this]
      exact ih
    · exact ih

theorem TrapTable.wfFrom_mono {low low' : Nat} (h : low' ≤ low) {t : TrapTable}
    (ht : TrapTable.wfFrom low t = true) : TrapTable.wfFrom low' t = true := by
  cases t with
  | nil => rfl
  | cons e rest =>
    simp only [TrapTable.wfFrom, Bool.and_eq_true, decide_eq_true_eq] at ht ⊢
    exact ⟨by omega, ht.2⟩

theorem TrapTable.wfFrom_trapInsert (a : Addr) (t : Trap) {low : Nat} {table : TrapTable}
    (ht : TrapTable.wfFrom low table = true) (ha : low ≤ a.toNat) :
    TrapTable.wfFrom low (trapInsert table a t) = true := by
  induction table generalizing low with
  | nil => simp [trapInsert, TrapTable.wfFrom, ha]
  | cons e rest ih =>
    obtain ⟨k, u⟩ := e
    simp only [TrapTable.wfFrom, Bool.and_eq_true, decide_eq_true_eq] at ht
    simp only [trapInsert]
    split
    · simp only [TrapTable.wfFrom, Bool.and_eq_true, decide_eq_true_eq]
      exact ⟨ha, by omega, ht.2⟩
    · split
      · rename_i h; subst h
        simp only [TrapTable.wfFrom, Bool.and_eq_true, decide_eq_true_eq]
        exact ht
      · rename_i h1 h2
        have : a.toNat ≠ k.toNat := fun h => h2 (BitVec.eq_of_toNat_eq h)
        simp only [TrapTable.wfFrom, Bool.and_eq_true, decide_eq_true_eq]
        exact ⟨ht.1, ih ht.2 (by omega)⟩

/-- A registration keeps the registry's canonical form. -/
theorem TrapTable.wf_trapInsert {table : TrapTable} (ht : TrapTable.wf table = true) (a : Addr) (t : Trap) :
    TrapTable.wf (trapInsert table a t) = true :=
  TrapTable.wfFrom_trapInsert a t ht (Nat.zero_le _)

/-! ### Hooks -/

/-- Everything a sequence of byte writes can do. -/
theorem State.memWrites_eq (s : State) (ws : List (Addr × Byte)) :
    s.memWrites ws =
      { s with
        mem := ws.foldl (fun m w => m.write w.1.toNat w.2) s.mem
        delivered := (s.memWrites ws).delivered } := by
  induction ws generalizing s with
  | nil => rfl
  | cons w rest ih =>
    obtain ⟨a, v⟩ := w
    simp only [State.memWrites, List.foldl_cons]
    rw [ih]
    rfl

/-- Everything a hook's effect can do. -/
theorem applyHook_eq (e : HookEffect) (s : State) :
    applyHook e s =
      { s with
        a := e.a, x := e.x, y := e.y, sp := e.sp, pc := e.pc, flags := e.flags
        mem := e.pokes.foldl (fun m w => m.write w.1.toNat w.2) s.mem
        delivered := (applyHook e s).delivered
        hookTick := s.hookTick + 1 } := by
  unfold applyHook
  rw [State.memWrites_eq]
  rfl

/-- What a hook leaves alone. -/
theorem applyHook_hidden (e : HookEffect) (s : State) :
    (applyHook e s).trapTable = s.trapTable ∧ (applyHook e s).opCount = s.opCount ∧
    (applyHook e s).listeners = s.listeners ∧ (applyHook e s).hookTick = s.hookTick + 1 ∧
    (applyHook e s).cfg = s.cfg := by
  rw [applyHook_eq]
  exact ⟨rfl, rfl, rfl, rfl, rfl⟩

theorem afterHook_hidden (t : Trap) (s : State) :
    (afterHook t s).trapTable = s.trapTable ∧ (afterHook t s).opCount = s.opCount ∧
    (afterHook t s).listeners = s.listeners ∧ (afterHook t s).hookTick = s.hookTick + 1 ∧
    (afterHook t s).cfg = s.cfg :=
  applyHook_hidden _ _

/-- The end-with instruction writes the stack pointer, the flags and the program counter only. -/
theorem performEndWith_eq (e : EndWith) (s : State) :
    performEndWith e s =
      { s with
        sp := (performEndWith e s).sp, flags := (performEndWith e s).flags, pc := (performEndWith e s).pc } := by
  cases e <;> rfl

theorem Inv_applyHook {s : State} (h : s.Inv) (e : HookEffect) : (applyHook e s).Inv :=
  Inv_of_same
    (Inv_memWrites
      (s := { s with a := e.a, x := e.x, y := e.y, sp := e.sp, pc := e.pc, flags := e.flags })
      (Inv_of_same h rfl rfl rfl rfl) e.pokes)
    rfl rfl rfl rfl

theorem Inv_performEndWith {s : State} (h : s.Inv) (e : EndWith) : (performEndWith e s).Inv := by
  rw [performEndWith_eq]
  exact Inv_of_same h rfl rfl rfl rfl

theorem Inv_trapVisit {s : State} (h : s.Inv) (t : Trap) : (trapVisit t s).Inv :=
  Inv_emit
    (Inv_of_same (Inv_performEndWith (Inv_applyHook (Inv_emit h _) _) t.endWith) rfl rfl rfl rfl
      : ((performEndWith t.endWith (afterHook t s)).countStep).Inv) _

end Sys2Proof.Machine
end

