-- ==== Sys2Proof/Laws/Step.lean ====
section
/-! SUPPORT. What a step can do, said once: a trap visit, or the decoded instruction between what a step does before and
after it. -/

namespace Sys2Proof.Machine

/-- What a step does before an instruction: `PC` past it, and one notification. -/
theorem beginInstr_eq (i : Instr) (s : State) :
    beginInstr i s =
      { s with
        pc := s.pc + BitVec.ofNat 16 i.length
        delivered := s.delivered ++ notifications s.listeners [.operationPerformed s.pc i] } := rfl

/-- What a step does after an instruction: one more operation, and notifications. -/
theorem finishInstr_eq (i : Instr) (s t : State) :
    finishInstr i s t = { t with opCount := t.opCount + 1, delivered := (finishInstr i s t).delivered } := by
  unfold finishInstr
  split <;> rfl

/-- Every completed step is a trap visit or the decoded instruction. -/
theorem step_cases {s w : State} (h : step s = .next w) :
    (∃ t, trapAt s.trapTable s.pc = some t ∧ w = trapVisit t s) ∨
    (trapAt s.trapTable s.pc = none ∧ ∃ i, fetch s = some i ∧
      w = finishInstr i (beginInstr i s) (operate i.mnemonic i.operand (beginInstr i s))) := by
  unfold step at h
  cases ht : trapAt s.trapTable s.pc with
  | some t =>
    simp only [ht, Host.Outcome.next.injEq] at h
    exact .inl ⟨t, rfl, h.symm⟩
  | none =>
    cases hf : fetch s with
    | none => simp [ht, hf] at h
    | some i =>
      simp only [ht, hf, exec_eq_operate, Host.Outcome.next.injEq] at h
      exact .inr ⟨rfl, i, rfl, h.symm⟩

/-- A step of a decoded instruction always completes. -/
theorem step_of_fetch {s : State} {i : Instr} (ht : trapAt s.trapTable s.pc = none) (hf : fetch s = some i) :
    step s = .next (finishInstr i (beginInstr i s) (operate i.mnemonic i.operand (beginInstr i s))) := by
  simp only [step, ht, hf, exec_eq_operate]

theorem Inv_beginInstr {s : State} (h : s.Inv) (i : Instr) : (beginInstr i s).Inv :=
  Inv_emit (Inv_of_same h rfl rfl rfl rfl : (s.withPc (s.pc + BitVec.ofNat 16 i.length)).Inv) _

theorem Inv_countStep {s : State} (h : s.Inv) : s.countStep.Inv := Inv_of_same h rfl rfl rfl rfl

theorem Inv_finishInstr {t : State} (h : t.Inv) (i : Instr) (s : State) : (finishInstr i s t).Inv := by
  unfold finishInstr
  split
  · exact Inv_emit (Inv_countStep (Inv_emit h _ : (announceJump (.instruction i) s t).Inv)) _
  · exact Inv_emit (Inv_countStep h) _

end Sys2Proof.Machine
end

