-- ==== Sys2Proof/Tests/Slice0.lean ====
section
/-! SUPPORT. The model's own tests: the well-formedness smoke test; every constructor's decoding from a word written
out from the bytes of spec/opcode_table.json and 30_encoding.md rules R91 and R95; one step on the vectors of
95_test_vectors.md; and, for every statement with hypotheses, a state and operands that meet them. -/

namespace Sys2Proof.Tests

open Sys2Proof.Machine Sys2Proof.Claims

/-! ### Helpers -/

/-- A machine after reset with bytes at `pc`, and further cells. -/
def start (pc : Addr) (bytes : List Byte) (cells : List (Addr × Byte)) : State :=
  { State.reset with pc := pc, mem := cells.foldl (fun m c => m.write c.1.toNat c.2) (placeBytes [] pc bytes) }

/-- The flags of a packed status byte, bit by bit. -/
def flagsOf (p : Byte) : Flags where
  n := p.getLsbD 7
  v := p.getLsbD 6
  b := p.getLsbD 4
  d := p.getLsbD 3
  i := p.getLsbD 2
  z := p.getLsbD 1
  c := p.getLsbD 0

/-- What a step leaves, looked at. -/
def after {α : Type} (s : State) (f : State → α) : Option α := (nextState? (step s)).map f

/-- The instructions that single words decode to, with nothing left over. -/
def decoded (words : List (List Byte)) : List (Option (Instr × List Byte)) := words.map fun w => (decode w).toOption

/-! ### Well-formedness, check by check (30_encoding.md rules R93, R120) -/

/-- The pair is in no row of the table. -/
theorem test_wf_refuses_sta_immediate : Operation.wf ⟨.sta, .imm 0x01⟩ = false := by decide

/-- A mode that the mnemonic does not have, though another has it. -/
theorem test_wf_refuses_lda_indirect : Operation.wf ⟨.lda, .ind 0x1234⟩ = false := by decide

theorem test_wf_refuses_lda_accumulator : Operation.wf ⟨.lda, .acc⟩ = false := by decide

theorem test_wf_accepts_lda_indexed : Operation.wf ⟨.lda, .mem (.indx 0x12)⟩ = true := by decide

theorem test_wf_accepts_instruction : (Instr.staAbs 0x2000).wf = true := by decide

/-! ### Decoding, every constructor. Operand bytes are 12H, or 34H then 12H for the address 1234H. -/

theorem test_decode_lda :
    decoded [[0xA9, 0x12], [0xA5, 0x12], [0xB5, 0x12], [0xAD, 0x34, 0x12], [0xBD, 0x34, 0x12],
      [0xB9, 0x34, 0x12], [0xA1, 0x12], [0xB1, 0x12]] =
      [some (.ldaImm 0x12, []), some (.ldaZp 0x12, []), some (.ldaZpx 0x12, []),
        some (.ldaAbs 0x1234, []), some (.ldaAbsx 0x1234, []), some (.ldaAbsy 0x1234, []),
        some (.ldaIndx 0x12, []), some (.ldaIndy 0x12, [])] := by decide

theorem test_decode_ldx :
    decoded [[0xA2, 0x12], [0xA6, 0x12], [0xB6, 0x12], [0xAE, 0x34, 0x12], [0xBE, 0x34, 0x12]] =
      [some (.ldxImm 0x12, []), some (.ldxZp 0x12, []), some (.ldxZpy 0x12, []),
        some (.ldxAbs 0x1234, []), some (.ldxAbsy 0x1234, [])] := by decide

theorem test_decode_ldy :
    decoded [[0xA0, 0x12], [0xA4, 0x12], [0xB4, 0x12], [0xAC, 0x34, 0x12], [0xBC, 0x34, 0x12]] =
      [some (.ldyImm 0x12, []), some (.ldyZp 0x12, []), some (.ldyZpx 0x12, []),
        some (.ldyAbs 0x1234, []), some (.ldyAbsx 0x1234, [])] := by decide

theorem test_decode_sta :
    decoded [[0x85, 0x12], [0x95, 0x12], [0x8D, 0x34, 0x12], [0x9D, 0x34, 0x12], [0x99, 0x34, 0x12],
      [0x81, 0x12], [0x91, 0x12]] =
      [some (.staZp 0x12, []), some (.staZpx 0x12, []), some (.staAbs 0x1234, []),
        some (.staAbsx 0x1234, []), some (.staAbsy 0x1234, []), some (.staIndx 0x12, []),
        some (.staIndy 0x12, [])] := by decide

theorem test_decode_stx :
    decoded [[0x86, 0x12], [0x96, 0x12], [0x8E, 0x34, 0x12]] =
      [some (.stxZp 0x12, []), some (.stxZpy 0x12, []), some (.stxAbs 0x1234, [])] := by decide

theorem test_decode_sty :
    decoded [[0x84, 0x12], [0x94, 0x12], [0x8C, 0x34, 0x12]] =
      [some (.styZp 0x12, []), some (.styZpx 0x12, []), some (.styAbs 0x1234, [])] := by decide

theorem test_decode_tax :
    decoded [[0xAA]] =
      [some (.tax, [])] := by decide

theorem test_decode_tay :
    decoded [[0xA8]] =
      [some (.tay, [])] := by decide

theorem test_decode_txa :
    decoded [[0x8A]] =
      [some (.txa, [])] := by decide

theorem test_decode_tya :
    decoded [[0x98]] =
      [some (.tya, [])] := by decide

theorem test_decode_tsx :
    decoded [[0xBA]] =
      [some (.tsx, [])] := by decide

theorem test_decode_txs :
    decoded [[0x9A]] =
      [some (.txs, [])] := by decide

theorem test_decode_adc :
    decoded [[0x69, 0x12], [0x65, 0x12], [0x75, 0x12], [0x6D, 0x34, 0x12], [0x7D, 0x34, 0x12],
      [0x79, 0x34, 0x12], [0x61, 0x12], [0x71, 0x12]] =
      [some (.adcImm 0x12, []), some (.adcZp 0x12, []), some (.adcZpx 0x12, []),
        some (.adcAbs 0x1234, []), some (.adcAbsx 0x1234, []), some (.adcAbsy 0x1234, []),
        some (.adcIndx 0x12, []), some (.adcIndy 0x12, [])] := by decide

theorem test_decode_sbc :
    decoded [[0xE9, 0x12], [0xE5, 0x12], [0xF5, 0x12], [0xED, 0x34, 0x12], [0xFD, 0x34, 0x12],
      [0xF9, 0x34, 0x12], [0xE1, 0x12], [0xF1, 0x12]] =
      [some (.sbcImm 0x12, []), some (.sbcZp 0x12, []), some (.sbcZpx 0x12, []),
        some (.sbcAbs 0x1234, []), some (.sbcAbsx 0x1234, []), some (.sbcAbsy 0x1234, []),
        some (.sbcIndx 0x12, []), some (.sbcIndy 0x12, [])] := by decide

theorem test_decode_and :
    decoded [[0x29, 0x12], [0x25, 0x12], [0x35, 0x12], [0x2D, 0x34, 0x12], [0x3D, 0x34, 0x12],
      [0x39, 0x34, 0x12], [0x21, 0x12], [0x31, 0x12]] =
      [some (.andImm 0x12, []), some (.andZp 0x12, []), some (.andZpx 0x12, []),
        some (.andAbs 0x1234, []), some (.andAbsx 0x1234, []), some (.andAbsy 0x1234, []),
        some (.andIndx 0x12, []), some (.andIndy 0x12, [])] := by decide

theorem test_decode_ora :
    decoded [[0x09, 0x12], [0x05, 0x12], [0x15, 0x12], [0x0D, 0x34, 0x12], [0x1D, 0x34, 0x12],
      [0x19, 0x34, 0x12], [0x01, 0x12], [0x11, 0x12]] =
      [some (.oraImm 0x12, []), some (.oraZp 0x12, []), some (.oraZpx 0x12, []),
        some (.oraAbs 0x1234, []), some (.oraAbsx 0x1234, []), some (.oraAbsy 0x1234, []),
        some (.oraIndx 0x12, []), some (.oraIndy 0x12, [])] := by decide

theorem test_decode_eor :
    decoded [[0x49, 0x12], [0x45, 0x12], [0x55, 0x12], [0x4D, 0x34, 0x12], [0x5D, 0x34, 0x12],
      [0x59, 0x34, 0x12], [0x41, 0x12], [0x51, 0x12]] =
      [some (.eorImm 0x12, []), some (.eorZp 0x12, []), some (.eorZpx 0x12, []),
        some (.eorAbs 0x1234, []), some (.eorAbsx 0x1234, []), some (.eorAbsy 0x1234, []),
        some (.eorIndx 0x12, []), some (.eorIndy 0x12, [])] := by decide

theorem test_decode_bit :
    decoded [[0x24, 0x12], [0x2C, 0x34, 0x12]] =
      [some (.bitZp 0x12, []), some (.bitAbs 0x1234, [])] := by decide

theorem test_decode_cmp :
    decoded [[0xC9, 0x12], [0xC5, 0x12], [0xD5, 0x12], [0xCD, 0x34, 0x12], [0xDD, 0x34, 0x12],
      [0xD9, 0x34, 0x12], [0xC1, 0x12], [0xD1, 0x12]] =
      [some (.cmpImm 0x12, []), some (.cmpZp 0x12, []), some (.cmpZpx 0x12, []),
        some (.cmpAbs 0x1234, []), some (.cmpAbsx 0x1234, []), some (.cmpAbsy 0x1234, []),
        some (.cmpIndx 0x12, []), some (.cmpIndy 0x12, [])] := by decide

theorem test_decode_cpx :
    decoded [[0xE0, 0x12], [0xE4, 0x12], [0xEC, 0x34, 0x12]] =
      [some (.cpxImm 0x12, []), some (.cpxZp 0x12, []), some (.cpxAbs 0x1234, [])] := by decide

theorem test_decode_cpy :
    decoded [[0xC0, 0x12], [0xC4, 0x12], [0xCC, 0x34, 0x12]] =
      [some (.cpyImm 0x12, []), some (.cpyZp 0x12, []), some (.cpyAbs 0x1234, [])] := by decide

theorem test_decode_inc :
    decoded [[0xE6, 0x12], [0xF6, 0x12], [0xEE, 0x34, 0x12], [0xFE, 0x34, 0x12]] =
      [some (.incZp 0x12, []), some (.incZpx 0x12, []), some (.incAbs 0x1234, []),
        some (.incAbsx 0x1234, [])] := by decide

theorem test_decode_dec :
    decoded [[0xC6, 0x12], [0xD6, 0x12], [0xCE, 0x34, 0x12], [0xDE, 0x34, 0x12]] =
      [some (.decZp 0x12, []), some (.decZpx 0x12, []), some (.decAbs 0x1234, []),
        some (.decAbsx 0x1234, [])] := by decide

theorem test_decode_inx :
    decoded [[0xE8]] =
      [some (.inx, [])] := by decide

theorem test_decode_iny :
    decoded [[0xC8]] =
      [some (.iny, [])] := by decide

theorem test_decode_dex :
    decoded [[0xCA]] =
      [some (.dex, [])] := by decide

theorem test_decode_dey :
    decoded [[0x88]] =
      [some (.dey, [])] := by decide

theorem test_decode_asl :
    decoded [[0x0A], [0x06, 0x12], [0x16, 0x12], [0x0E, 0x34, 0x12], [0x1E, 0x34, 0x12]] =
      [some (.aslAcc, []), some (.aslZp 0x12, []), some (.aslZpx 0x12, []), some (.aslAbs 0x1234, []),
        some (.aslAbsx 0x1234, [])] := by decide

theorem test_decode_lsr :
    decoded [[0x4A], [0x46, 0x12], [0x56, 0x12], [0x4E, 0x34, 0x12], [0x5E, 0x34, 0x12]] =
      [some (.lsrAcc, []), some (.lsrZp 0x12, []), some (.lsrZpx 0x12, []), some (.lsrAbs 0x1234, []),
        some (.lsrAbsx 0x1234, [])] := by decide

theorem test_decode_rol :
    decoded [[0x2A], [0x26, 0x12], [0x36, 0x12], [0x2E, 0x34, 0x12], [0x3E, 0x34, 0x12]] =
      [some (.rolAcc, []), some (.rolZp 0x12, []), some (.rolZpx 0x12, []), some (.rolAbs 0x1234, []),
        some (.rolAbsx 0x1234, [])] := by decide

theorem test_decode_ror :
    decoded [[0x6A], [0x66, 0x12], [0x76, 0x12], [0x6E, 0x34, 0x12], [0x7E, 0x34, 0x12]] =
      [some (.rorAcc, []), some (.rorZp 0x12, []), some (.rorZpx 0x12, []), some (.rorAbs 0x1234, []),
        some (.rorAbsx 0x1234, [])] := by decide

theorem test_decode_pha :
    decoded [[0x48]] =
      [some (.pha, [])] := by decide

theorem test_decode_php :
    decoded [[0x08]] =
      [some (.php, [])] := by decide

theorem test_decode_pla :
    decoded [[0x68]] =
      [some (.pla, [])] := by decide

theorem test_decode_plp :
    decoded [[0x28]] =
      [some (.plp, [])] := by decide

theorem test_decode_clc :
    decoded [[0x18]] =
      [some (.clc, [])] := by decide

theorem test_decode_sec :
    decoded [[0x38]] =
      [some (.sec, [])] := by decide

theorem test_decode_cli :
    decoded [[0x58]] =
      [some (.cli, [])] := by decide

theorem test_decode_sei :
    decoded [[0x78]] =
      [some (.sei, [])] := by decide

theorem test_decode_cld :
    decoded [[0xD8]] =
      [some (.cld, [])] := by decide

theorem test_decode_sed :
    decoded [[0xF8]] =
      [some (.sed, [])] := by decide

theorem test_decode_clv :
    decoded [[0xB8]] =
      [some (.clv, [])] := by decide

theorem test_decode_jmp :
    decoded [[0x4C, 0x34, 0x12], [0x6C, 0x34, 0x12]] =
      [some (.jmpAbs 0x1234, []), some (.jmpInd 0x1234, [])] := by decide

theorem test_decode_jsr :
    decoded [[0x20, 0x34, 0x12]] =
      [some (.jsr 0x1234, [])] := by decide

theorem test_decode_rts :
    decoded [[0x60]] =
      [some (.rts, [])] := by decide

theorem test_decode_bcc :
    decoded [[0x90, 0x12]] =
      [some (.bcc 0x12, [])] := by decide

theorem test_decode_bcs :
    decoded [[0xB0, 0x12]] =
      [some (.bcs 0x12, [])] := by decide

theorem test_decode_beq :
    decoded [[0xF0, 0x12]] =
      [some (.beq 0x12, [])] := by decide

theorem test_decode_bne :
    decoded [[0xD0, 0x12]] =
      [some (.bne 0x12, [])] := by decide

theorem test_decode_bmi :
    decoded [[0x30, 0x12]] =
      [some (.bmi 0x12, [])] := by decide

theorem test_decode_bpl :
    decoded [[0x10, 0x12]] =
      [some (.bpl 0x12, [])] := by decide

theorem test_decode_bvc :
    decoded [[0x50, 0x12]] =
      [some (.bvc 0x12, [])] := by decide

theorem test_decode_bvs :
    decoded [[0x70, 0x12]] =
      [some (.bvs 0x12, [])] := by decide

theorem test_decode_nop :
    decoded [[0xEA]] =
      [some (.nop, [])] := by decide

theorem test_decode_brk :
    decoded [[0x00]] =
      [some (.brk, [])] := by decide

theorem test_decode_rti :
    decoded [[0x40]] =
      [some (.rti, [])] := by decide

/-- Of the 256 cells of the grid 151 hold a row (rules R92, R97). -/
theorem test_decode_counts : (grid.map fun row => (row.filter fun cell => cell.isSome).length).sum = 151 := by decide

/-- Bytes of no row are rejected by name. -/
theorem test_decode_rejects :
    decode [0x89, 0x01] = .error (.unmappableOpcode 0x89) ∧ decode [0x02] = .error (.unmappableOpcode 0x02) ∧
    decode [0xFF, 0x00, 0x00] = .error (.unmappableOpcode 0xFF) := ⟨rfl, rfl, rfl⟩

/-- The table's numbering of bits: the second byte is bits 15..8, the third bits 23..16. -/
theorem test_decode_table_word :
    decodeTableWord 24 0x12348D = some (.staAbs 0x1234) ∧ decodeTableWord 16 0x12A9 = some (.ldaImm 0x12) ∧
    decodeTableWord 8 0xEA = some .nop ∧ decodeTableWord 8 0x02 = none := by decide

/-- The word placed from reset is the instruction the first step runs. -/
theorem test_with_fetch_word :
    after (State.reset.withFetchWord 16 0x80A9) (fun t => (t.a, t.pc, t.flags.pack, t.opCount)) =
      some (0x80, 0x0002, 0xA0, 1) := by decide

/-! ### One step: Loads, stores, transfers (95_test_vectors.md section 2.1) -/

theorem test_lda_imm :
    after { start 0x1000 [0xA9, 0x00] [] with a := 0x55 }
      (fun t => (t.a, t.pc, t.flags.pack)) = some (0x00, 0x1002, 0x22) := by decide

theorem test_lda_zpx_no_wrap :
    after { start 0x1000 [0xB5, 0xFF] [(0x0101, 0x77), (0x0001, 0x11)] with x := 0x02 }
      (fun t => (t.a, t.pc, t.flags.pack)) = some (0x77, 0x1002, 0x20) := by decide

theorem test_lda_indirect_y_pointer_at_ff :
    after (start 0x1000 [0xB1, 0xFF] [(0x00FF, 0x34), (0x0100, 0x12), (0x0000, 0x56), (0x1234, 0xAA), (0x5634, 0xBB)])
      (fun t => (t.a, t.pc, t.flags.pack)) = some (0xAA, 0x1002, 0xA0) := by decide

theorem test_ldx_zpy_no_wrap :
    after { start 0x1000 [0xB6, 0x10] [(0x0108, 0x7F), (0x0008, 0x01)] with y := 0xF8 }
      (fun t => (t.x, t.pc, t.flags.pack)) = some (0x7F, 0x1002, 0x20) := by decide

theorem test_ldy_absx :
    after { start 0x1000 [0xBC, 0x00, 0x30] [] with x := 0xFF, y := 0x01 }
      (fun t => (t.y, t.pc, t.flags.pack)) = some (0x00, 0x1003, 0x22) := by decide

theorem test_sta_absx :
    after { start 0x1000 [0x9D, 0x00, 0x20] [] with a := 0xAB, x := 0x05, flags := flagsOf 0xA2 }
      (fun t => (t.memRead 0x2005, t.pc, t.flags.pack)) = some (0xAB, 0x1003, 0xA2) := by decide

theorem test_sta_indirect_y_wrap :
    after { start 0x1000 [0x91, 0x40] [(0x0040, 0xF8), (0x0041, 0xFF)] with a := 0x5A, y := 0x10 }
      (fun t => (t.memRead 0x0008, t.pc, t.flags.pack)) = some (0x5A, 0x1002, 0x20) := by decide

theorem test_stx_zpy_no_wrap :
    after { start 0x1000 [0x96, 0xF0] [] with x := 0x99, y := 0x20 }
      (fun t => (t.memRead 0x0110, t.memRead 0x0010, t.flags.pack)) = some (0x99, 0x00, 0x20) := by decide

theorem test_sty_zp_sets_no_flag :
    after (start 0x1000 [0x84, 0x02] [(0x0002, 0x77)])
      (fun t => (t.memRead 0x0002, t.pc, t.flags.pack)) = some (0x00, 0x1002, 0x20) := by decide

theorem test_tax :
    after { start 0x1000 [0xAA] [] with a := 0x80 }
      (fun t => (t.x, t.pc, t.flags.pack)) = some (0x80, 0x1001, 0xA0) := by decide

theorem test_tay :
    after { start 0x1000 [0xA8] [] with y := 0x05 }
      (fun t => (t.y, t.pc, t.flags.pack)) = some (0x00, 0x1001, 0x22) := by decide

theorem test_txa :
    after { start 0x1000 [0x8A] [] with a := 0xFF, x := 0x7F }
      (fun t => (t.a, t.pc, t.flags.pack)) = some (0x7F, 0x1001, 0x20) := by decide

theorem test_tya :
    after { start 0x1000 [0x98] [] with y := 0xC0 }
      (fun t => (t.a, t.pc, t.flags.pack)) = some (0xC0, 0x1001, 0xA0) := by decide

theorem test_tsx :
    after { start 0x1000 [0xBA] [] with x := 0x11, sp := 0x00 }
      (fun t => (t.x, t.sp, t.flags.pack)) = some (0x00, 0x00, 0x22) := by decide

theorem test_txs_sets_no_flag :
    after { start 0x1000 [0x9A] [] with flags := flagsOf 0xA0 }
      (fun t => (t.sp, t.pc, t.flags.pack)) = some (0x00, 0x1001, 0xA0) := by decide

/-! ### One step: Arithmetic, logic, compare, increment (section 2.2) -/

theorem test_adc_overflow_both_negative :
    after { start 0x1000 [0x69, 0x80] [] with a := 0x80 }
      (fun t => (t.a, t.flags.pack)) = some (0x00, 0x63) := by decide

theorem test_adc_decimal_flag_is_binary :
    after { start 0x1000 [0x69, 0x19] [] with a := 0x28, flags := flagsOf 0x28 }
      (fun t => (t.a, t.flags.pack)) = some (0x41, 0x28) := by decide

theorem test_sbc_overflow :
    after { start 0x1000 [0xE9, 0x01] [] with a := 0x80, flags := flagsOf 0x21 }
      (fun t => (t.a, t.flags.pack)) = some (0x7F, 0x61) := by decide

theorem test_sbc_borrow_in :
    after { start 0x1000 [0xE9, 0x05] [] with a := 0x05 }
      (fun t => (t.a, t.flags.pack)) = some (0xFF, 0xA0) := by decide

theorem test_and :
    after { start 0x1000 [0x29, 0x0F] [] with a := 0xF0 }
      (fun t => (t.a, t.flags.pack)) = some (0x00, 0x22) := by decide

theorem test_ora :
    after { start 0x1000 [0x09, 0x80] [] with a := 0x01 }
      (fun t => (t.a, t.flags.pack)) = some (0x81, 0xA0) := by decide

theorem test_eor :
    after { start 0x1000 [0x49, 0xFF] [] with a := 0xFF }
      (fun t => (t.a, t.flags.pack)) = some (0x00, 0x22) := by decide

theorem test_bit_abs_keeps_carry :
    after { start 0x1000 [0x2C, 0x00, 0x20] [(0x2000, 0xC0)] with flags := flagsOf 0x21 }
      (fun t => (t.a, t.pc, t.flags.pack)) = some (0x00, 0x1003, 0xE3) := by decide

theorem test_cmp_less_keeps_overflow :
    after { start 0x1000 [0xC9, 0x01] [] with flags := flagsOf 0x60 }
      (fun t => (t.a, t.flags.pack)) = some (0x00, 0xE0) := by decide

theorem test_cmp_unsigned :
    after { start 0x1000 [0xC9, 0x01] [] with a := 0x80 }
      (fun t => (t.a, t.flags.pack)) = some (0x80, 0x21) := by decide

theorem test_cpx :
    after { start 0x1000 [0xE0, 0x08] [] with x := 0x05 }
      (fun t => (t.x, t.flags.pack)) = some (0x05, 0xA0) := by decide

theorem test_cpy :
    after { start 0x1000 [0xC0, 0x08] [] with y := 0x10 }
      (fun t => (t.y, t.flags.pack)) = some (0x10, 0x21) := by decide

theorem test_inc_absx :
    after { start 0x1000 [0xFE, 0x00, 0x20] [(0x2001, 0x7F)] with x := 0x01 }
      (fun t => (t.memRead 0x2001, t.flags.pack)) = some (0x80, 0xA0) := by decide

theorem test_dec_wraps :
    after (start 0x1000 [0xC6, 0x10] [])
      (fun t => (t.memRead 0x0010, t.flags.pack)) = some (0xFF, 0xA0) := by decide

theorem test_inx_wraps_keeps_carry :
    after { start 0x1000 [0xE8] [] with x := 0xFF, flags := flagsOf 0x21 }
      (fun t => (t.x, t.flags.pack)) = some (0x00, 0x23) := by decide

theorem test_iny :
    after { start 0x1000 [0xC8] [] with y := 0x7F }
      (fun t => (t.y, t.flags.pack)) = some (0x80, 0xA0) := by decide

theorem test_dex_wraps :
    after (start 0x1000 [0xCA] [])
      (fun t => (t.x, t.flags.pack)) = some (0xFF, 0xA0) := by decide

theorem test_dey :
    after { start 0x1000 [0x88] [] with y := 0x01 }
      (fun t => (t.y, t.flags.pack)) = some (0x00, 0x22) := by decide

/-! ### One step: Shifts and rotates (section 2.3) -/

theorem test_asl_acc :
    after { start 0x1000 [0x0A] [] with a := 0x81 }
      (fun t => (t.a, t.flags.pack)) = some (0x02, 0x21) := by decide

theorem test_lsr_zp :
    after { start 0x1000 [0x46, 0x10] [(0x0010, 0x02)] with flags := flagsOf 0x21 }
      (fun t => (t.memRead 0x0010, t.flags.pack)) = some (0x01, 0x20) := by decide

theorem test_rol_acc :
    after { start 0x1000 [0x2A] [] with a := 0x40, flags := flagsOf 0x21 }
      (fun t => (t.a, t.flags.pack)) = some (0x81, 0xA0) := by decide

theorem test_rol_zpx_no_wrap :
    after { start 0x1000 [0x36, 0xF0] [(0x0010, 0xFF)] with x := 0x20, flags := flagsOf 0x21 }
      (fun t => (t.memRead 0x0110, t.memRead 0x0010, t.flags.pack)) = some (0x01, 0xFF, 0x20) := by decide

theorem test_ror_acc :
    after { start 0x1000 [0x6A] [] with a := 0x03, flags := flagsOf 0x21 }
      (fun t => (t.a, t.flags.pack)) = some (0x81, 0xA1) := by decide

theorem test_ror_abs :
    after { start 0x1000 [0x6E, 0x00, 0x20] [] with flags := flagsOf 0x21 }
      (fun t => (t.memRead 0x2000, t.pc, t.flags.pack)) = some (0x80, 0x1003, 0xA0) := by decide

/-! ### One step: Stack and flags (section 2.4) -/

theorem test_pha_wraps :
    after { start 0x1000 [0x48] [] with a := 0x7E, sp := 0x00 }
      (fun t => (t.memRead 0x0100, t.sp, t.flags.pack)) = some (0x7E, 0xFF, 0x20) := by decide

theorem test_php_all_flags :
    after { start 0x1000 [0x08] [] with flags := flagsOf 0xFF }
      (fun t => (t.memRead 0x01FF, t.sp, t.flags.pack)) = some (0xFF, 0xFE, 0xFF) := by decide

theorem test_php_no_flags :
    after (start 0x1000 [0x08] [])
      (fun t => (t.memRead 0x01FF, t.sp, t.flags.pack)) = some (0x20, 0xFE, 0x20) := by decide

theorem test_pla :
    after { start 0x1000 [0x68] [(0x01FF, 0x80)] with a := 0x11, sp := 0xFE }
      (fun t => (t.a, t.sp, t.flags.pack)) = some (0x80, 0xFF, 0xA0) := by decide

theorem test_plp_ignores_bit_five :
    after { start 0x1000 [0x28] [(0x01FF, 0xC3)] with sp := 0xFE }
      (fun t => (t.sp, t.flags.pack)) = some (0xFF, 0xE3) := by decide

theorem test_plp_loads_break :
    after { start 0x1000 [0x28] [(0x01FF, 0x10)] with sp := 0xFE, flags := flagsOf 0xEF }
      (fun t => (t.sp, t.flags.pack)) = some (0xFF, 0x30) := by decide

theorem test_clc :
    after { start 0x1000 [0x18] [] with flags := flagsOf 0xFF }
      (fun t => (t.pc, t.flags.pack)) = some (0x1001, 0xFE) := by decide

theorem test_sec :
    after { start 0x1000 [0x38] [] with flags := flagsOf 0x20 }
      (fun t => (t.pc, t.flags.pack)) = some (0x1001, 0x21) := by decide

theorem test_cli :
    after { start 0x1000 [0x58] [] with flags := flagsOf 0xFF }
      (fun t => (t.pc, t.flags.pack)) = some (0x1001, 0xFB) := by decide

theorem test_sei :
    after { start 0x1000 [0x78] [] with flags := flagsOf 0x20 }
      (fun t => (t.pc, t.flags.pack)) = some (0x1001, 0x24) := by decide

theorem test_cld :
    after { start 0x1000 [0xD8] [] with flags := flagsOf 0xFF }
      (fun t => (t.pc, t.flags.pack)) = some (0x1001, 0xF7) := by decide

theorem test_sed :
    after { start 0x1000 [0xF8] [] with flags := flagsOf 0x20 }
      (fun t => (t.pc, t.flags.pack)) = some (0x1001, 0x28) := by decide

theorem test_clv :
    after { start 0x1000 [0xB8] [] with flags := flagsOf 0xFF }
      (fun t => (t.pc, t.flags.pack)) = some (0x1001, 0xBF) := by decide

/-! ### One step: Control transfer (section 2.5) -/

theorem test_jmp_abs :
    after (start 0x1000 [0x4C, 0x06, 0x10] [])
      (fun t => (t.pc, t.flags.pack)) = some (0x1006, 0x20) := by decide

theorem test_jmp_ind_at_page_end :
    after (start 0x1000 [0x6C, 0xFF, 0x10] [(0x10FF, 0x34), (0x1100, 0x12)])
      (fun t => (t.pc, t.flags.pack)) = some (0x1234, 0x20) := by decide

theorem test_jsr_wraps :
    after { start 0x2FFE [0x20, 0x00, 0x30] [] with sp := 0x00 }
      (fun t => (t.memRead 0x0100, t.memRead 0x01FF, t.sp, t.pc)) = some (0x30, 0x00, 0xFE, 0x3000) := by decide

theorem test_jsr_at_the_end_of_memory :
    after (start 0xFFFD [0x20, 0x00, 0x30] [])
      (fun t => (t.memRead 0x01FF, t.memRead 0x01FE, t.sp, t.pc)) = some (0xFF, 0xFF, 0xFD, 0x3000) := by decide

theorem test_rts :
    after { start 0x1005 [0x60] [(0x01FE, 0x0A), (0x01FF, 0x10)] with sp := 0xFD }
      (fun t => (t.sp, t.pc)) = some (0xFF, 0x100B) := by decide

theorem test_rts_wraps :
    after (start 0x1005 [0x60] [(0x0100, 0x33), (0x0101, 0x22)])
      (fun t => (t.sp, t.pc)) = some (0x01, 0x2234) := by decide

theorem test_bcc_taken :
    after (start 0x1000 [0x90, 0x04] [])
      (fun t => (t.pc, t.flags.pack)) = some (0x1006, 0x20) := by decide

theorem test_bcc_not_taken :
    after { start 0x1000 [0x90, 0x04] [] with flags := flagsOf 0x21 }
      (fun t => (t.pc, t.flags.pack)) = some (0x1002, 0x21) := by decide

theorem test_bcs_backward :
    after { start 0x1000 [0xB0, 0xFC] [] with flags := flagsOf 0x21 }
      (fun t => (t.pc, t.flags.pack)) = some (0x0FFE, 0x21) := by decide

theorem test_beq_across_the_end :
    after { start 0xFFFE [0xF0, 0x02] [] with flags := flagsOf 0x22 }
      (fun t => (t.pc, t.flags.pack)) = some (0x0002, 0x22) := by decide

theorem test_bne_below_zero :
    after (start 0x0000 [0xD0, 0x80] [])
      (fun t => (t.pc, t.flags.pack)) = some (0xFF82, 0x20) := by decide

theorem test_bne_not_taken :
    after { start 0x1003 [0xD0, 0xFB] [] with flags := flagsOf 0x22 }
      (fun t => (t.pc, t.flags.pack)) = some (0x1005, 0x22) := by decide

theorem test_bmi :
    after { start 0x1000 [0x30, 0x02] [] with flags := flagsOf 0xA0 }
      (fun t => (t.pc, t.flags.pack)) = some (0x1004, 0xA0) := by decide

theorem test_bpl_to_itself :
    after (start 0x1000 [0x10, 0xFE] [])
      (fun t => (t.pc, t.flags.pack)) = some (0x1000, 0x20) := by decide

theorem test_bvc_farthest_forward :
    after (start 0x1000 [0x50, 0x7F] [])
      (fun t => (t.pc, t.flags.pack)) = some (0x1081, 0x20) := by decide

theorem test_bvs_farthest_backward :
    after { start 0x1000 [0x70, 0x80] [] with flags := flagsOf 0x60 }
      (fun t => (t.pc, t.flags.pack)) = some (0x0F82, 0x60) := by decide

/-! ### One step: System (section 2.6) -/

theorem test_nop :
    after { start 0x1000 [0xEA] [] with flags := flagsOf 0xFF }
      (fun t => (t.a, t.x, t.y, t.sp, t.pc, t.flags.pack)) =
      some (0x00, 0x00, 0x00, 0xFF, 0x1001, 0xFF) := by decide

theorem test_brk_through_its_vector :
    after { start 0x4000 [0x00] [(0x0317, 0x80), (0x0314, 0xAA), (0x0315, 0xBB)]
      with sp := 0x01, flags := flagsOf 0x25 }
      (fun t => (t.memRead 0x0101, t.memRead 0x0100, t.memRead 0x01FF, t.sp, t.flags.pack, t.pc)) =
      some (0x40, 0x02, 0x35, 0xFE, 0x35, 0x8000) := by decide

theorem test_brk_at_the_end_of_memory :
    after (start 0xFFFF [0x00] [])
      (fun t => (t.memRead 0x01FF, t.memRead 0x01FE, t.memRead 0x01FD, t.sp, t.flags.pack)) =
      some (0x00, 0x01, 0x30, 0xFC, 0x34) := by decide

theorem test_rti_of_a_break_frame :
    after { start 0x1000 [0x40] [(0x01FD, 0xB0), (0x01FE, 0x0F), (0x01FF, 0x10)] with sp := 0xFC }
      (fun t => (t.sp, t.pc, t.flags.pack)) = some (0xFF, 0x100F, 0xB0) := by decide

theorem test_rti :
    after { start 0x1000 [0x40] [(0x01FD, 0x23), (0x01FE, 0x34), (0x01FF, 0x12)] with sp := 0xFC }
      (fun t => (t.sp, t.pc, t.flags.pack)) = some (0xFF, 0x1234, 0x23) := by decide

/-! ### Fatal errors, traps, the host's interface, the encoder (sections 1, 2.6, 2.7, 3) -/

/-- The fatal error of an unmapped byte names the byte and its address. -/
theorem test_unmapped_is_fatal : step (start 0x1000 [0x02] []) = .fault (.unmappableOpcode 0x02 0x1000) := rfl

/-- A registered address is not fetched, whatever byte lies there (P5's 0x02 at FFD2H): the step is the visit. -/
theorem test_trap_is_not_fetched :
    step { start 0xFFD2 [0x02] [] with trapTable := [(0xFFD2, ⟨7, .rts⟩)] } =
      .next (trapVisit ⟨7, .rts⟩ { start 0xFFD2 [0x02] [] with trapTable := [(0xFFD2, ⟨7, .rts⟩)] }) := rfl

theorem test_request_interrupt_accepted :
    (fun t : State => (t.memRead 0x01FF, t.memRead 0x01FE, t.memRead 0x01FD, t.sp, t.pc, t.flags.pack, t.opCount))
      (requestInterrupt { start 0x1005 [] [(0x0315, 0x20)] with a := 0x80, x := 0x01, flags := flagsOf 0x21 }) =
      (0x10, 0x05, 0x21, 0xFC, 0x2000, 0x25, 0) := by decide

theorem test_request_interrupt_with_break_set :
    (fun t : State => (t.memRead 0x01FF, t.memRead 0x01FE, t.memRead 0x01FD, t.sp, t.pc, t.flags.pack))
      (requestInterrupt { start 0x1234 [] [(0x0316, 0x78), (0x0317, 0x56), (0x0314, 0x11), (0x0315, 0x22)] with
        flags := flagsOf 0x30 }) =
      (0x12, 0x34, 0x30, 0xFC, 0x5678, 0x34) := by decide

/-- S10: the load address first, then the bytes; `PC` stays. -/
theorem test_load_raw_image :
    (nextState? (loadRawImage [0x00, 0xC0, 0xA9, 0x48, 0x00] State.reset)).map (fun t => (t.mem, t.pc)) =
      some ([(0xC000, 0xA9), (0xC001, 0x48)], 0x0000) := by decide

/-- The bounds of `readRange`, both readings, at the end of memory. -/
theorem test_read_range_bounds :
    readRange (start 0xFFFE [0x11, 0x22] []) 0xFFFE 0xFFFF = [0x11] ∧
    readRange { start 0xFFFE [0x11, 0x22] [] with cfg := { readRangeInclusive := true } } 0xFFFE 0xFFFF =
      [0x11, 0x22] ∧
    readRange State.reset 0x1000 0x1000 = [] := by decide

theorem test_hand_built_operation_refused :
    performOperation ⟨.sta, .imm 0x01⟩ State.reset = .fault (.unsupportedOperand .sta .imm) := rfl

/-- The rows of section 2.7. -/
theorem test_relative_bytes :
    relativeByte 0x1002 0x1005 = .ok 0xFB ∧ relativeByte 0x2002 0x2000 = .ok 0x00 ∧
    relativeByte 0x2081 0x2000 = .ok 0x7F ∧ relativeByte 0x2082 0x2000 = .ok 0x80 ∧
    relativeByte 0x2083 0x2000 = .error (.relativeOutOfRange 129) ∧ relativeByte 0x2000 0x207E = .ok 0x80 ∧
    relativeByte 0x2000 0x207F = .error (.relativeOutOfRange (-129)) := ⟨rfl, rfl, rfl, rfl, rfl, rfl, rfl⟩

/-- The Program of S2. -/
def programS2 : Program :=
  ⟨0x1000, [.operation .lda (.concrete (.imm 0x33)), .operation .sta (.concrete (.mem (.abs 0x2000))),
    .operation .rts (.concrete .imp)]⟩

theorem test_image_of_program : image programS2 = .ok [0x00, 0x10, 0xA9, 0x33, 0x8D, 0x00, 0x20, 0x60] := rfl

theorem test_disassembly_of_image :
    disassembleImage [0x00, 0x10, 0xA9, 0x33, 0x8D, 0x00, 0x20, 0x60] =
      [.instruction (.ldaImm 0x33), .instruction (.staAbs 0x2000), .instruction .rts] := by decide

/-- The Program of S3, with a virtual operand. -/
def programS3 : Program :=
  ⟨0x1000, [.operation .jmp (.virtual (.absolute (.label "main"))), .label "sub",
    .operation .lda (.concrete (.imm 0x33)), .operation .rts (.concrete .imp), .label "main"]⟩

theorem test_labels :
    resolveAbsolute programS3 "sub" = .ok 0x1003 ∧ resolveAbsolute programS3 "main" = .ok 0x1006 ∧
    compile programS3 = .ok [0x4C, 0x06, 0x10, 0xA9, 0x33, 0x60] := ⟨rfl, rfl, rfl⟩

/-! ### Witnesses: states and operands that meet the hypotheses of each statement -/

/-- A machine in use: bytes in memory, a listener, a routine registered elsewhere, flags and registers set. -/
def busy : State :=
  { start 0x1000 [0xA9, 0x05] [(0x01FE, 0x34), (0x01FF, 0x12)] with
    a := 0x81, x := 0x02, y := 0x03, sp := 0xFD, flags := flagsOf 0xA1, trapTable := [(0xFFD2, ⟨7, .rts⟩)]
    listeners := [⟨0, none⟩, ⟨1, some .memoryChanged⟩], delivered := [⟨⟨0, none⟩, .jumpedTo 0x1000⟩] }

/-- Its invariant holds. -/
theorem test_busy_inv : busy.Inv := ⟨by decide, by decide, by unfold State.deliveriesOk; decide⟩

/-- MemoryIsCanonical: two machines that differ in a register and read the same everywhere. -/
theorem test_witness_memory_is_canonical :
    busy.Inv ∧ State.Inv { busy with a := 0x00 } ∧ SameMemory busy { busy with a := 0x00 } :=
  ⟨test_busy_inv, ⟨by decide, by decide, test_busy_inv.deliveries⟩, fun _ => rfl⟩

/-- The statements about an 8-bit source value: each mnemonic, in a mode of each kind of source. -/
theorem test_witness_sources :
    [Instr.ldaImm 0x12, .ldxAbsy 0x1234, .ldyZpx 0x12, .adcIndx 0x12, .sbcIndy 0x12, .andAbsx 0x1234, .oraZp 0x12,
      .eorAbs 0x1234, .cmpImm 0x12, .cpxZp 0x12, .cpyAbs 0x1234].map (fun i => (i.mnemonic, i.operand.source?)) =
    [(.lda, some (.imm 0x12)), (.ldx, some (.mem (.absy 0x1234))), (.ldy, some (.mem (.zpx 0x12))),
      (.adc, some (.mem (.indx 0x12))), (.sbc, some (.mem (.indy 0x12))), (.and, some (.mem (.absx 0x1234))),
      (.ora, some (.mem (.zp 0x12))), (.eor, some (.mem (.abs 0x1234))), (.cmp, some (.imm 0x12)),
      (.cpx, some (.mem (.zp 0x12))), (.cpy, some (.mem (.abs 0x1234)))] := by decide

/-- The statements about a memory operand and about the accumulator as operand. -/
theorem test_witness_operands :
    [Instr.staIndy 0x12, .stxZpy 0x12, .styAbs 0x1234, .bitZp 0x12, .incAbsx 0x1234, .decZp 0x12, .aslZpx 0x12,
      .lsrAbs 0x1234, .rolZp 0x12, .rorAbsx 0x1234, .aslAcc, .lsrAcc, .rolAcc, .rorAcc].map
      (fun i => (i.mnemonic, i.operand)) =
    [(.sta, .mem (.indy 0x12)), (.stx, .mem (.zpy 0x12)), (.sty, .mem (.abs 0x1234)), (.bit, .mem (.zp 0x12)),
      (.inc, .mem (.absx 0x1234)), (.dec, .mem (.zp 0x12)), (.asl, .mem (.zpx 0x12)), (.lsr, .mem (.abs 0x1234)),
      (.rol, .mem (.zp 0x12)), (.ror, .mem (.absx 0x1234)), (.asl, .acc), (.lsr, .acc), (.rol, .acc),
      (.ror, .acc)] := by decide

/-- DecimalFlagHasNoEffect: an instruction that is neither PHP nor BRK. -/
theorem test_witness_decimal :
    (Instr.adcImm 0x19).mnemonic ≠ .php ∧ (Instr.adcImm 0x19).mnemonic ≠ .brk := by decide

/-- FlagInstructionsWriteOneFlag: a state after CLI and one after SEI. -/
theorem test_witness_cli_sei :
    exec .cli busy = .next { busy with flags := { busy.flags with i := false } } ∧
    exec .sei busy = .next { busy with flags := { busy.flags with i := true } } := ⟨rfl, rfl⟩

/-- SubroutineRoundTrip: the state JSR left, and one that a called routine changed elsewhere. -/
theorem test_witness_subroutine_round_trip :
    ∃ t, exec (.jsr 0x2000) busy = .next t ∧
      { t with a := 0x00 }.cfg = busy.cfg ∧ { t with a := 0x00 }.sp = t.sp ∧
      { t with a := 0x00 }.memRead (stackSlot busy 0) = t.memRead (stackSlot busy 0) ∧
      { t with a := 0x00 }.memRead (stackSlot busy 1) = t.memRead (stackSlot busy 1) := ⟨_, rfl, rfl, rfl, rfl, rfl⟩

/-- NopOnlyAdvances, at the step. -/
theorem test_witness_nop :
    trapAt (start 0x1000 [0xEA] []).trapTable 0x1000 = none ∧ (start 0x1000 [0xEA] []).memRead 0x1000 = 0xEA := by
  decide

/-- InterruptRequestEntersOrIsDropped and InterruptRoundTrip: `I` set, `I` clear, and a handler that changed `A`. -/
theorem test_witness_interrupts :
    busy.flags.i = false ∧ { start 0x1000 [] [] with flags := flagsOf 0x24 }.flags.i = true ∧
    { requestInterrupt busy with a := 0x00 }.cfg = busy.cfg ∧
    { requestInterrupt busy with a := 0x00 }.sp = (requestInterrupt busy).sp ∧
    (∀ k ∈ [(0 : Byte), 1, 2], { requestInterrupt busy with a := 0x00 }.memRead (stackSlot busy k) =
      (requestInterrupt busy).memRead (stackSlot busy k)) := ⟨rfl, rfl, rfl, rfl, fun _ _ => rfl⟩

/-- EncodeOfDecode: bytes that decode, with bytes after them. -/
theorem test_witness_encode_of_decode : decode [0x8D, 0x00, 0x20, 0x60] = .ok (.staAbs 0x2000, [0x60]) := rfl

/-- UnmappedBytesAreFatal: an unmapped byte at `PC`, no routine registered. -/
theorem test_witness_unmapped :
    trapAt (start 0x1000 [0xFF] []).trapTable 0x1000 = none ∧ (start 0x1000 [0xFF] []).memRead 0x1000 ∈ unmapped := by
  decide

/-- StepRunsDecodedInstruction, its clause about a next state; NonTransfersAdvancePc; EventsOfAnInstructionStep. -/
theorem test_witness_step_runs :
    trapAt busy.trapTable busy.pc = none ∧
    decode [busy.memRead busy.pc, busy.memRead (busy.pc + 1), busy.memRead (busy.pc + 2)] = .ok (.ldaImm 0x05, [0x00]) ∧
    fetch busy = some (.ldaImm 0x05) ∧ (Instr.ldaImm 0x05).mnemonic ∉ transfers ∧ ∃ w, step busy = .next w :=
  ⟨by decide, rfl, rfl, by decide, _, rfl⟩

/-- StoreIsSeenByNextFetch: the store of a byte that the fetch reads. -/
theorem test_witness_store_is_seen :
    { busy with mem := (busy.memWrite 0x1001 0x77).mem }.mem = (busy.memWrite 0x1001 0x77).mem ∧
    fetch { busy with mem := (busy.memWrite 0x1001 0x77).mem } = some (.ldaImm 0x77) := ⟨rfl, rfl⟩

/-- TrapVisitRunsHookThenEndWith and StepCountsAndKeepsHiddenState: both end-with instructions. -/
theorem test_witness_trap_visit :
    trapAt { busy with pc := 0xFFD2 }.trapTable 0xFFD2 = some ⟨7, .rts⟩ ∧
    (∃ w, step { busy with pc := 0xFFD2 } = .next w) ∧
    trapAt { busy with trapTable := [(0x1000, ⟨8, .rti⟩)] }.trapTable 0x1000 = some ⟨8, .rti⟩ :=
  ⟨by decide, ⟨_, rfl⟩, by decide⟩

/-- RegistrationAddsOneTrap: a second registration at an address replaces the first; no end-with is RTS (rule R280). -/
theorem test_witness_registration :
    (register 0xFFD2 { execute := 9, endWith := some .rti } busy).trapTable = [(0xFFD2, ⟨9, .rti⟩)] ∧
    (register 0xE000 { execute := 9, endWith := some .rti } busy).trapTable =
      [(0xE000, ⟨9, .rti⟩), (0xFFD2, ⟨7, .rts⟩)] ∧
    (register 0xE000 { execute := 9 } busy).trapTable = [(0xE000, ⟨9, .rts⟩), (0xFFD2, ⟨7, .rts⟩)] := by decide

/-- RegisterReadersAndWriters: instructions outside each list, and some that write what they do not read. -/
theorem test_witness_readers_and_writers :
    ¬ ReadsA (.ldaImm 0x12) ∧ WritesA (.ldaImm 0x12) ∧ ¬ WritesA (.staZp 0x12) ∧ ¬ ReadsX (.ldxImm 0x12) ∧
    WritesX (.ldxImm 0x12) ∧ ¬ WritesX (.cpxImm 0x12) ∧ ¬ ReadsY (.ldyImm 0x12) ∧ WritesY (.ldyImm 0x12) ∧
    ¬ WritesY (.cpyImm 0x12) := by
  unfold ReadsA WritesA ReadsX WritesX ReadsY WritesY
  decide

/-- MemoryReadsAndWrites: an address past the end of memory, and another byte. -/
theorem test_witness_memory_addresses :
    (65536 : Nat) % 65536 = 0 ∧ (1 : Nat) ≠ 65536 % 65536 ∧ (busy.memWrite (BitVec.ofNat 16 65536) 0x55).mem.read 0 = 0x55 := by
  decide

/-- FlagReaders: for each flag an instruction that writes what it does not read, and one that does neither. -/
theorem test_witness_flag_readers :
    Mnemonic.cmp ∉ [Mnemonic.adc, .sbc, .rol, .ror, .bcc, .bcs, .php, .brk] ∧
    Mnemonic.cmp ∈ [Mnemonic.adc, .sbc, .cmp, .cpx, .cpy, .asl, .lsr, .rol, .ror, .clc, .sec, .plp, .rti] ∧
    Mnemonic.adc ∉ [Mnemonic.beq, .bne, .php, .brk] ∧ Mnemonic.adc ∉ [Mnemonic.bmi, .bpl, .php, .brk] ∧
    Mnemonic.adc ∈ writersOfZN ∧ Mnemonic.sei ∉ [Mnemonic.php, .brk] ∧
    Mnemonic.sei ∈ [Mnemonic.sei, .cli, .brk, .plp, .rti] ∧ Mnemonic.plp ∈ [Mnemonic.brk, .plp, .rti] ∧
    Mnemonic.bit ∉ [Mnemonic.bvc, .bvs, .php, .brk] ∧ Mnemonic.bit ∈ [Mnemonic.adc, .sbc, .bit, .clv, .plp, .rti] ∧
    Mnemonic.sta ∉ [Mnemonic.adc, .sbc, .rol, .ror, .bcc, .bcs, .php, .brk] ∧ Mnemonic.sta ∉ writersOfZN ∧
    Mnemonic.sta ∉ [Mnemonic.adc, .sbc, .cmp, .cpx, .cpy, .asl, .lsr, .rol, .ror, .clc, .sec, .plp, .rti] := by decide

/-- EventsOfAnInstructionStep, and its events for a store (60_exceptions.md rules R284, R290): listener 0 hears all, listener 1
memory-changed only. -/
theorem test_events_of_a_store :
    fetch { busy with mem := (start 0x1000 [0x8D, 0x00, 0x20] [(0x2000, 0x55)]).mem } = some (.staAbs 0x2000) ∧
    (nextState? (step { busy with mem := (start 0x1000 [0x8D, 0x00, 0x20] [(0x2000, 0x55)]).mem })).map
      (fun t => t.delivered.drop busy.delivered.length) =
      some [⟨⟨0, none⟩, .operationPerformed 0x1000 (.staAbs 0x2000)⟩, ⟨⟨0, none⟩, .memoryChanged 0x2000 0x55 0x81⟩,
        ⟨⟨1, some .memoryChanged⟩, .memoryChanged 0x2000 0x55 0x81⟩,
        ⟨⟨0, none⟩, .registerStateChanged ⟨0x81, 0x02, 0x03, 0xFD, 0x1003, 0xA1⟩⟩] := ⟨rfl, rfl⟩

/-- EventsOfAnInstructionStep: the stores of JSR, high byte first, at descending addresses. -/
theorem test_events_of_two_pushes :
    (nextState? (exec (.jsr 0x2000) { busy with pc := 0x1235, listeners := [⟨1, some .memoryChanged⟩] })).map
      (fun t => (t.delivered.drop busy.delivered.length).map Delivery.event) =
      some [.memoryChanged 0x01FD 0x00 0x12, .memoryChanged 0x01FC 0x00 0x34] := rfl

/-- FlagAndStackPointerWriters, InstructionsStoreOnlyWhereTheySay, HiddenStateIsUnreadable: instructions that answer a
next state and are outside the lists, one that stores and one that does not. -/
theorem test_witness_frames :
    exec .nop busy = .next busy ∧ Mnemonic.nop ∉ writersOfZN ∧ storedAddresses .nop busy = [] ∧
    (∃ t, exec (.staAbs 0x2000) busy = .next t) ∧ storedAddresses (.staAbs 0x2000) busy = [0x2000] ∧
    storedAddresses .brk busy = [0x01FD, 0x01FC, 0x01FB] := ⟨rfl, by decide, by decide, ⟨_, rfl⟩, by decide, by decide⟩

/-- StepKeepsInvariant and SessionsKeepInvariant: a step, and a session of several actions, from a machine in use. -/
theorem test_witness_invariants :
    busy.Inv ∧ (∃ w, step busy = .next w) ∧
    ∃ w, session [.poke 0x2000 0x01, .subscribe ⟨2, some .jumpedTo⟩,
      .register 0xFFD5 { onLoad := some 4, execute := 9, endWith := some .rti }] busy = .next w :=
  ⟨test_busy_inv, ⟨_, rfl⟩, ⟨_, rfl⟩⟩

/-- How a run ends, and after how many steps. -/
def ends (first : Addr) (max : Nat) (s : State) : RunEnd × Nat := ((run first max s).ended, (run first max s).steps)

/-- RunEndsInOneOfThreeWays: the three ends, and the two runs of no step. -/
theorem test_witness_run_ends :
    ends 0x1000 2 (start 0x1000 [0xEA, 0x00] []) = (.brk, 2) ∧
    ends 0x1000 1 (start 0x1000 [0xEA, 0x00] []) = (.budget, 1) ∧
    ends 0x1000 9 (start 0x1000 [0xEA, 0x02] []) = (.fatal (.unmappableOpcode 0x02 0x1001), 1) ∧
    ends 0x1000 9 { busy with flags := flagsOf 0x30 } = (.brk, 0) ∧
    ends 0x1000 0 busy = (.budget, 0) := by decide

/-- HostMemoryOperations at its bounds: an image that ends with the last byte of memory, one that is a byte longer, an
empty one, and the two that are too short. -/
theorem test_witness_host_memory :
    (nextState? (loadRawImage [0xFE, 0xFF, 0x11, 0x22] State.reset)).map (fun t => t.mem) =
      some [(0xFFFE, 0x11), (0xFFFF, 0x22)] ∧
    loadRawImage [0xFE, 0xFF, 0x11, 0x22, 0x33] State.reset = .refused .imagePastEnd ∧
    (nextState? (loadRawImage [0x00, 0x10] State.reset)).map (fun t => t.mem) = some [] ∧
    loadRawImage [0x00] State.reset = .refused .imageTooShort ∧ loadRawImage [] State.reset = .refused .imageTooShort :=
  ⟨by decide, rfl, by decide, rfl, rfl⟩

/-- HandBuiltOperations: a pair the table has, and one it has not. -/
theorem test_witness_hand_built : supports .sta .imm = false ∧ supports .sta .zp = true := by decide

/-- RelativeResolution where its clauses meet: distances -129, -128, +127, +128 and +129. -/
theorem test_witness_relative :
    resolveAbsolute ⟨0x2000, [.label "l"]⟩ "l" = .ok 0x2000 ∧
    [0x207F, 0x207E, 0x1F7F, 0x1F7E, 0x1F7D].map (fun branch => (0x2000 : Int) - (branch + 2)) = [-129, -128, 127, 128, 129] :=
  ⟨rfl, by decide⟩

/-- LabelAddressesAreSumsOfLengths: a label among elements that do not hold it, and a name no label has. -/
theorem test_witness_labels :
    Element.label "main" ∉ programS3.elements.take 4 ∧ Element.label "main" ∉ programS3.elements.drop 5 ∧ Element.label "other" ∉ programS3.elements := by decide

/-- DisassemblyRoundTrip: a Program of concrete operations that compiles, and one with data and a marker. -/
theorem test_witness_disassembly :
    (∀ e ∈ programS2.elements, PlainElement e) ∧ compile programS2 = .ok [0xA9, 0x33, 0x8D, 0x00, 0x20, 0x60] ∧
    compile ⟨0x1000, [.data [0x02, 0xEA], .comment "c", .hostRoutineMarker false]⟩ = .ok [0x02, 0xEA] := by
  refine ⟨?_, rfl, rfl⟩
  simp [programS2, PlainElement]

end Sys2Proof.Tests
end

section
/-! SUPPORT. The memory accesses at a number as address (00_scope.md rule R9): the address counts modulo 65536, and a
pair is little-endian. -/

namespace Sys2Proof.Machine

theorem State.memRead_ofNat (s : State) (n : Nat) : s.memRead (BitVec.ofNat 16 n) = s.mem.read (n % 65536) := by
  rw [State.memRead, BitVec.toNat_ofNat]

theorem State.memRead16_toNat (s : State) (a : Addr) :
    (s.memRead16 a).toNat = 256 * (s.memRead (a + 1)).toNat + (s.memRead a).toNat := by
  rw [State.memRead16, word_toNat, Nat.mul_comm]

theorem State.memWrite_ofNat_mem (s : State) (n : Nat) (v : Byte) :
    (s.memWrite (BitVec.ofNat 16 n) v).mem = s.mem.write (n % 65536) v := by
  rw [State.memWrite_mem, BitVec.toNat_ofNat]

/-- Settles O5: each access at a number is one at its residue, and the byte after it is at the residue of `n + 1`. -/
theorem memoryReadsAndWrites : Obligations.MemoryReadsAndWrites := by
  intro s n v
  have succ_addr : BitVec.ofNat 16 n + 1 = BitVec.ofNat 16 (n + 1) := (BitVec.ofNat_add n 1).symm
  refine ⟨s.memRead_ofNat n, ?_, ?_, fun k hk => ?_⟩
  · rw [State.memRead16_toNat, succ_addr, State.memRead_ofNat, State.memRead_ofNat]
  · rw [State.memWrite_ofNat_mem, Memory.read_write_same]
  · rw [State.memWrite_ofNat_mem, Memory.read_write_other _ v hk]

end Sys2Proof.Machine
end

section
/-! SUPPORT. The packed status byte (10_state.md rule R29): its value as a sum, its bit 5, and the slots PHP and the
interrupt-entry sequence push it to. -/

namespace Sys2Proof

/-- The weights of `PackP()` are distinct powers of two below 256, so the sum does not wrap. -/
theorem Flags.pack_toNat (f : Flags) :
    f.pack.toNat = f.n.toNat * 128 + f.v.toNat * 64 + 32 + f.b.toNat * 16 + f.d.toNat * 8 + f.i.toNat * 4 +
      f.z.toNat * 2 + f.c.toNat := by
  have hn := f.n.toNat_lt
  have hv := f.v.toNat_lt
  have hb := f.b.toNat_lt
  have hd := f.d.toNat_lt
  have hi := f.i.toNat_lt
  have hz := f.z.toNat_lt
  have hc := f.c.toNat_lt
  rw [Flags.pack, BitVec.toNat_ofNat, Nat.mod_eq_of_lt (by omega)]

/-- The flags below bit 5 sum to less than 32 and those above it to a multiple of 64, so bit 5 is the constant 32. -/
theorem Flags.pack_getLsbD_five (f : Flags) : f.pack.getLsbD 5 = true := by
  have hb := f.b.toNat_lt
  have hd := f.d.toNat_lt
  have hi := f.i.toNat_lt
  have hz := f.z.toNat_lt
  have hc := f.c.toNat_lt
  have quotient : f.pack.toNat / 2 ^ 5 % 2 = 1 := by
    rw [f.pack_toNat]
    omega
  rw [← BitVec.testBit_toNat, Nat.testBit_eq_decide_div_mod_eq]
  exact decide_eq_true quotient

namespace Machine

theorem State.memRead_push8_stackSlot (s : State) (v : Byte) : (s.push8 v).memRead (stackSlot s 0) = v := by
  rw [State.memRead_push8, stackSlot_zero, if_pos rfl]

/-- Settles O3: the sum and bit 5 are facts of `PackP()`, and the three uses are read off PHP's push, the interrupt
entry's third slot and the snapshot. -/
theorem packedStatusByte : Obligations.PackedStatusByte := by
  intro f
  refine ⟨f.pack_toNat, f.pack_getLsbD_five, ?clear, fun s => ⟨?php, ?entry, rfl⟩⟩
  case clear =>
    rintro rfl
    rfl
  case php =>
    exact ⟨s.push8 s.flags.pack, exec_eq_operate .php s, s.memRead_push8_stackSlot _⟩
  case entry =>
    rw [interruptEntry_memRead, if_pos rfl]

end Machine
end Sys2Proof
end

section
/-! SUPPORT. The stack pointer of one push and one pop (20_memory.md rules R69, R70), as the integers modulo 256, and
the byte on top after a push: what a pop returns next, whatever was pushed below it. -/

namespace Sys2Proof.Machine

/-- One lower modulo 256 is the byte less one, at 0 too. -/
theorem ofInt_toNat_sub_one (b : Byte) : BitVec.ofInt 8 ((b.toNat : Int) - 1) = b - 1 := by
  apply BitVec.eq_of_toNat_eq
  rw [BitVec.toNat_ofInt]
  bv_omega

/-- One higher modulo 256 is the byte and one, at 255 too. -/
theorem ofNat_toNat_add_one (b : Byte) : BitVec.ofNat 8 (b.toNat + 1) = b + 1 := by
  rw [BitVec.ofNat_add, BitVec.ofNat_toNat, BitVec.setWidth_eq, BitVec.ofNat_eq_ofNat]

variable (s : State) (v w : Byte)

theorem State.push8_sameMemoryOutside :
    SameMemoryOutside [s.cfg.stackBase + zext s.sp] s (s.push8 v) := by
  intro a ha
  rw [State.memRead_push8, if_neg (List.mem_singleton.not.mp ha)]

@[simp] theorem State.push8_popped8 : (s.push8 v).popped8 = v := by
  rw [State.popped8_def, State.push8_sp, State.push8_cfg, BitVec.sub_add_cancel, State.memRead_push8, if_pos rfl]

/-- The second push goes to another slot than the first, so below the byte popped first lies the one pushed first. -/
theorem State.push8_push8_pop8_popped8 : ((s.push8 v).push8 w).pop8.popped8 = v := by
  have back : s.sp - 1 - 1 + 1 + 1 = s.sp := by rw [BitVec.sub_add_cancel, BitVec.sub_add_cancel]
  have apart : s.cfg.stackBase + zext s.sp ≠ s.cfg.stackBase + zext (s.sp - 1) := by
    rw [← stackSlot_zero, ← stackSlot_def]
    exact stackSlot_ne s (by decide)
  simp only [State.popped8_def, State.pop8_sp, State.pop8_cfg, State.push8_sp, State.push8_cfg, State.memRead_pop8, back]
  rw [State.memRead_push8, State.push8_sp, State.push8_cfg, if_neg apart, State.memRead_push8, if_pos rfl]

/-- Settles O7: the slot and frame of the push, `SP` modulo 256 both ways, and two pushes popped in reverse order. -/
theorem pushAndPopOfOneByte : Obligations.PushAndPopOfOneByte := by
  intro s v
  rw [ofInt_toNat_sub_one, ofNat_toNat_add_one]
  refine ⟨?slot, s.push8_sameMemoryOutside v, s.push8_eq v, rfl, s.popped8_def, fun w => ⟨?last, ?first, ?spBack⟩⟩
  case slot => rw [← stackSlot_zero, s.memRead_push8_stackSlot]
  case last => exact (s.push8 v).push8_popped8 w
  case first => exact s.push8_push8_pop8_popped8 v w
  case spBack => simp only [State.pop8_sp, State.push8_sp, BitVec.sub_add_cancel]

end Sys2Proof.Machine
end

section
/-! SUPPORT. The fetch reads memory as it stands, at the program counter (20_memory.md rule R76). -/

namespace Sys2Proof.Machine

/-- The fetch is the decoder's answer on the bytes at `PC`, without the bytes it leaves over. -/
theorem fetch_eq_decode (s : State) : fetch s = (decode (fetchBytes s)).toOption.map Prod.fst := by
  unfold fetch
  cases decode (fetchBytes s) with
  | ok r => rfl
  | error e => rfl

/-- Reading any state whose memory is that after a store. -/
theorem State.memRead_of_mem_eq_memWrite {s u : State} {a : Addr} {v : Byte} (h : u.mem = (s.memWrite a v).mem)
    (b : Addr) : u.memRead b = if b = a then v else s.memRead b := by
  rw [← State.memRead_memWrite, State.memRead, h, State.memRead]

/-- Settles O42: the fetch decodes the bytes of memory at `PC`, and each of them reads as the store left it. -/
theorem storeIsSeenByNextFetch : Obligations.StoreIsSeenByNextFetch := by
  intro s u a v h now
  have reads (k : Addr) : u.memRead (u.pc + k) = now k := State.memRead_of_mem_eq_memWrite h (u.pc + k)
  have bytes : fetchBytes u = [now 0, now 1, now 2] := by
    rw [← reads 0, ← reads 1, ← reads 2, fetchBytes, show u.pc + 0 = u.pc from BitVec.add_zero u.pc]
  rw [fetch_eq_decode, bytes]

end Sys2Proof.Machine
end

section
/-! SUPPORT. The effective addresses of the direct modes (30_encoding.md rules R102 to R107): two bytes read in 16 bits
add without wrapping, and an address and an index add modulo 65536. -/

namespace Sys2Proof

/-- The sum is at most 510: it stays in the integers and may leave the zero page. -/
theorem zext_add_zext_toNat (b c : Byte) : (zext b + zext c).toNat = b.toNat + c.toNat := by
  have hb := b.isLt
  have hc := c.isLt
  rw [BitVec.toNat_add, zext_toNat, zext_toNat, Nat.mod_eq_of_lt (by omega)]

theorem add_zext_toNat (w : Addr) (b : Byte) : (w + zext b).toNat = (w.toNat + b.toNat) % 65536 := by
  rw [BitVec.toNat_add, zext_toNat]

/-- Settles O8: the effective address of each direct mode is a word, a byte, or one of the two kinds of sum. -/
theorem Machine.directEffectiveAddresses : Obligations.DirectEffectiveAddresses := by
  intro b w s
  exact ⟨zext_toNat b, zext_add_zext_toNat b s.x, zext_add_zext_toNat b s.y, rfl, add_zext_toNat w s.x,
    add_zext_toNat w s.y⟩

end Sys2Proof
end

section
/-! SUPPORT. The two tables of the instruction set, read the other way (30_encoding.md rules R93, R96, R97): the cell a
byte selects is a pair of rule R92 with that byte, and the bytes that select no cell are a fetch's only failure. -/

namespace Sys2Proof

/-- Every cell of rule R96 is the pair of rule R92 that has its byte: a check of the 256 bytes. -/
theorem encodeByte_of_decodeByte {b : Byte} {mn : Mnemonic} {mode : Mode} (h : decodeByte b = some (mn, mode)) :
    encodeByte mn mode = some b := by
  have all : ∀ b : Byte, ∀ p ∈ decodeByte b, encodeByte p.1 p.2 = some b := by decide +revert
  exact all b (mn, mode) h

theorem encodeByte_eq_some_iff {mn : Mnemonic} {mode : Mode} {b : Byte} :
    encodeByte mn mode = some b ↔ decodeByte b = some (mn, mode) :=
  ⟨decodeByte_of_encodeByte, encodeByte_of_decodeByte⟩

theorem supports_iff_exists_decodeByte {mn : Mnemonic} {mode : Mode} :
    supports mn mode = true ↔ ∃ b, decodeByte b = some (mn, mode) := by
  rw [supports, Option.isSome_iff_exists]
  exact exists_congr fun _ => encodeByte_eq_some_iff

theorem encodings_modes_nodup (mn : Mnemonic) : ((encodings mn).map Prod.fst).Nodup := by
  cases mn <;> decide

/-- Settles O36: each table is the other's inverse, so an entry for a pair is a byte that decodes to it; the modes of
each of the 56 rows are distinct. -/
theorem encodeAndDecodeTablesAreInverse : Obligations.EncodeAndDecodeTablesAreInverse :=
  ⟨fun _ _ _ => encodeByte_eq_some_iff, fun _ _ => supports_iff_exists_decodeByte, encodings_modes_nodup⟩

namespace Machine

/-- The list of rule R97 is the complement of the grid: a check of the 256 bytes. -/
theorem decodeByte_eq_none_iff_mem_unmapped (b : Byte) : decodeByte b = none ↔ b ∈ Claims.unmapped := by
  decide +revert

/-- The fatal error of rule R261: no routine is registered at `PC` and the fetch finds no instruction. -/
theorem step_of_fetch_eq_none {s : State} (ht : trapAt s.trapTable s.pc = none) (hf : fetch s = none) :
    step s = .fault (.unmappableOpcode (s.memRead s.pc) s.pc) := by
  simp only [step, ht, hf]

/-- Settles O39: the fetch fails exactly at a byte without an entry, whatever the two bytes after it are. -/
theorem unmappedBytesAreFatal : Obligations.UnmappedBytesAreFatal := by
  refine ⟨rfl, decodeByte_eq_none_iff_mem_unmapped, fun s ht hb => ?_⟩
  have noEntry : decodeByte (s.memRead s.pc) = none := (decodeByte_eq_none_iff_mem_unmapped _).mpr hb
  exact step_of_fetch_eq_none ht ((fetch_eq_none_iff s).mpr noEntry)

end Machine
end Sys2Proof
end

section
/-! SUPPORT. Label addresses (30_encoding.md rule R115): the search for a label passes over what is not that label,
adding its length. -/

namespace Sys2Proof.Machine

/-- Elements that do not hold the label only move the address on, each by its length. -/
theorem labelAddress_append_of_notMem {name : String} {before : List Element} (h : Element.label name ∉ before)
    (at_ : Nat) (rest : List Element) :
    labelAddress name at_ (before ++ rest) = labelAddress name (at_ + (before.map Element.length).sum) rest := by
  induction before generalizing at_ with
  | nil => rfl
  | cons e before ih =>
    obtain ⟨hne, hnot⟩ := List.ne_and_not_mem_of_not_mem_cons h
    rw [List.cons_append, labelAddress, if_neg (Ne.symm hne), ih hnot, List.map_cons, List.sum_cons, Nat.add_assoc]

theorem labelAddress_eq_none_of_notMem {name : String} {es : List Element} (h : Element.label name ∉ es) (at_ : Nat) :
    labelAddress name at_ es = none := by
  have passed := labelAddress_append_of_notMem h at_ []
  rwa [List.append_nil] at passed

/-- Settles O59: the search passes over the elements before the label and stops at it, or passes over them all. -/
theorem labelAddressesAreSumsOfLengths : Obligations.LabelAddressesAreSumsOfLengths := by
  refine ⟨fun start name before after hbefore _ => ?found, fun p name h => ?unknown⟩
  case found => rw [resolveAbsolute, labelAddress_append_of_notMem hbefore, labelAddress, if_pos rfl]
  case unknown => rw [resolveAbsolute, labelAddress_eq_none_of_notMem h]

end Sys2Proof.Machine
end

section
/-! SUPPORT. The relative displacement (30_encoding.md rule R117): the byte the encoder writes, and what the engine adds
to `PC` for it (rule R112), which is the distance itself but for +128, whose byte 0x80 reads as -128. -/

namespace Sys2Proof

/-- A byte read in 16 bits, signed, is the number of -128 to +127 that the byte stands for. -/
theorem sext8_ofInt (d : Int) : sext8 (BitVec.ofInt 8 d) = BitVec.ofInt 16 (d.bmod 256) := by
  rw [sext8, BitVec.signExtend, BitVec.toInt_ofInt]

theorem ofInt_eight_toNat (d : Int) : ((BitVec.ofInt 8 d).toNat : Int) = d % 256 := by
  rw [BitVec.toNat_ofInt]
  omega

namespace Machine

theorem relativeByte_of_outOfRange {target branch : Int}
    (h : target - (branch + 2) < -128 ∨ 128 < target - (branch + 2)) :
    relativeByte target branch = .error (.relativeOutOfRange (target - (branch + 2))) :=
  if_pos h

theorem relativeByte_of_inRange {target branch : Int}
    (h : -128 ≤ target - (branch + 2) ∧ target - (branch + 2) ≤ 128) :
    relativeByte target branch = .ok (BitVec.ofInt 8 (target - (branch + 2))) :=
  if_neg (by omega)

/-- A relative operand that names a label is the displacement byte to the label's address, or its error. -/
theorem resolveOperand_relative_label {p : Program} {name : String} {label : Nat}
    (h : resolveAbsolute p name = .ok label) (branch : Nat) :
    resolveOperand p branch (.virtual (.relative (.label name))) = (relativeByte label branch).map .rel := by
  rw [resolveOperand, resolveRef, h]
  rfl

/-- The branch of a displacement lands at `PC` plus the number its byte stands for. -/
theorem relTarget_ofInt {s : State} {after : Nat} (hpc : s.pc = BitVec.ofNat 16 after) (d : Int) :
    relTarget (BitVec.ofInt 8 d) s = BitVec.ofInt 16 (after + d.bmod 256) := by
  rw [relTarget, hpc, sext8_ofInt, BitVec.ofInt_add, BitVec.ofInt_natCast]

/-- Of the accepted distances only +128 is not the number its byte stands for. -/
theorem bmod_of_accepted {d : Int} (low : -128 ≤ d) (high : d ≤ 128) :
    d.bmod 256 = if d = 128 then d - 256 else d := by
  split
  · next h => rw [h]; rfl
  · next h => exact Int.bmod_eq_of_le (by omega) (by omega)

/-- Settles O58: the range test, the byte the encoder writes, and the branch of the engine from the address after it. -/
theorem relativeResolution : Obligations.RelativeResolution := by
  intro p name label branch hlabel d operand
  have resolved : operand = (relativeByte label branch).map .rel := resolveOperand_relative_label hlabel branch
  refine ⟨fun hout => ?error, fun ⟨low, high⟩ => ⟨BitVec.ofInt 8 d, ?byte, ofInt_eight_toNat d, fun s hpc => ?target⟩⟩
  case error => rw [resolved, relativeByte_of_outOfRange hout]; rfl
  case byte => rw [resolved, relativeByte_of_inRange ⟨low, high⟩]; rfl
  case target =>
    rw [relTarget_ofInt hpc, bmod_of_accepted low high]
    congr 1
    split <;> omega

end Machine
end Sys2Proof
end

section
/-! SUPPORT. Loads, stores and transfers (40_load_store_transfer.md): `setNZ` as the flags of rule R27, a register
written together with `Z` and `N` of its new value, and one byte stored with nothing else changed. -/

namespace Sys2Proof

/-- The high bit of a byte is set exactly when the byte is 128 or more. -/
theorem Flags.setNZ_eq_nz (f : Flags) (v : Byte) : f.setNZ v = Claims.nz f v := by
  have high : v.getLsbD 7 = decide (128 ≤ v.toNat) := by
    rw [← v.msb_eq_getLsbD_last, v.msb_eq_decide]
  rw [Flags.setNZ, Claims.nz, high, beq_eq_decide]

namespace Machine

section UpdateLaws

variable (s : State) (v : Byte)

theorem State.setNZ_eq_nz : s.setNZ v = { s with flags := Claims.nz s.flags v } := by
  rw [State.setNZ, Flags.setNZ_eq_nz, State.withFlags]

theorem State.withA_setNZ : (s.withA v).setNZ v = { s with a := v, flags := Claims.nz s.flags v } :=
  (s.withA v).setNZ_eq_nz v

theorem State.withX_setNZ : (s.withX v).setNZ v = { s with x := v, flags := Claims.nz s.flags v } :=
  (s.withX v).setNZ_eq_nz v

theorem State.withY_setNZ : (s.withY v).setNZ v = { s with y := v, flags := Claims.nz s.flags v } :=
  (s.withY v).setNZ_eq_nz v

/-- A byte write is a store of that byte that leaves the flags as they were. -/
theorem State.storesByte_memWrite (a : Addr) : Claims.StoresByte s (s.memWrite a v) a v s.flags := by
  refine ⟨s.memRead_memWrite_same a v, fun b hb => ?_, s.memWrite_eq a v⟩
  exact s.memRead_memWrite_other v (List.mem_singleton.not.mp hb)

end UpdateLaws

/-- Settles O10: each mnemonic's operation on the instruction's source writes its register, then `Z` and `N`. -/
theorem loadsReadOperandAndSetZeroNegative : Obligations.LoadsReadOperandAndSetZeroNegative := by
  refine ⟨rfl, rfl, rfl, fun i src s hsrc => ⟨fun hmn => ?lda, fun hmn => ?ldx, fun hmn => ?ldy⟩⟩
  all_goals rw [exec_eq_operate, hmn, operate, hsrc]
  case lda => exact congrArg Host.Outcome.next (s.withA_setNZ (operand8 src s))
  case ldx => exact congrArg Host.Outcome.next (s.withX_setNZ (operand8 src s))
  case ldy => exact congrArg Host.Outcome.next (s.withY_setNZ (operand8 src s))

/-- Settles O11: each mnemonic's operation on a memory operand is one byte write at its effective address. -/
theorem storesWriteOneByteAndNoFlag : Obligations.StoresWriteOneByteAndNoFlag := by
  refine ⟨rfl, rfl, rfl, fun i m s hop => ⟨fun hmn => ⟨sta m s, ?sta, s.storesByte_memWrite s.a (ea m s)⟩,
    fun hmn => ⟨stx m s, ?stx, s.storesByte_memWrite s.x (ea m s)⟩,
    fun hmn => ⟨sty m s, ?sty, s.storesByte_memWrite s.y (ea m s)⟩⟩⟩
  all_goals rw [exec_eq_operate, hmn, hop]; rfl

/-- Settles O12: five transfers write a register, then `Z` and `N` of what they moved; TXS writes `SP` alone. -/
theorem transfersMoveAndSetZeroNegative : Obligations.TransfersMoveAndSetZeroNegative := by
  refine ⟨rfl, rfl, rfl, rfl, rfl, rfl, fun s => ⟨?tax, ?tay, ?txa, ?tya, ?tsx, rfl⟩⟩
  case tax => exact congrArg Host.Outcome.next (s.withX_setNZ s.a)
  case tay => exact congrArg Host.Outcome.next (s.withY_setNZ s.a)
  case txa => exact congrArg Host.Outcome.next (s.withA_setNZ s.x)
  case tya => exact congrArg Host.Outcome.next (s.withA_setNZ s.y)
  case tsx => exact congrArg Host.Outcome.next (s.withX_setNZ s.sp)

end Machine
end Sys2Proof
end

section
/-! SUPPORT. ADC and SBC (41_arithmetic_logic.md rules R161, R162): the test on the sign bits as the range of the signed
sum, and SBC as ADC of the complement, from which its own test follows. -/

namespace Sys2Proof

theorem bne_eq_decide_of_iff {v w : Byte} {p : Prop} [Decidable p] (h : v ≠ w ↔ p) : (v != w) = decide p :=
  Bool.eq_iff_iff.mpr (bne_iff_ne.trans (h.trans decide_eq_true_iff.symm))

/-- The mask 0x80 keeps the sign bit alone. -/
theorem and_signMask_ne_zero_iff (v : Byte) : v &&& 0x80 ≠ 0 ↔ v.toInt < 0 := by
  have sign : v.getLsbD 7 = true ↔ v.toInt < 0 := by rw [← v.msb_eq_getLsbD_last, v.msb_eq_toInt, decide_eq_true_iff]
  rw [show (0x80 : Byte) = BitVec.twoPow 8 7 from rfl, BitVec.and_twoPow, ← sign]
  split
  · next set => exact iff_of_true (by decide) set
  · next clear => exact iff_of_false (fun h => h rfl) clear

/-- The test of rule R161: both operands have the other sign than the result. -/
theorem signTest_iff (a m r : Byte) :
    (a ^^^ r) &&& (m ^^^ r) &&& 0x80 ≠ 0 ↔ ¬(a.toInt < 0 ↔ r.toInt < 0) ∧ ¬(m.toInt < 0 ↔ r.toInt < 0) := by
  have differ (x : Byte) : (x ^^^ r).msb = true ↔ ¬(x.toInt < 0 ↔ r.toInt < 0) := by
    rw [BitVec.msb_xor, Bool.xor_iff_ne, ne_eq, BitVec.msb_eq_toInt, BitVec.msb_eq_toInt, decide_eq_decide]
  rw [and_signMask_ne_zero_iff, ← differ, ← differ, ← Bool.and_eq_true_iff, ← BitVec.msb_and, BitVec.msb_eq_toInt,
    decide_eq_true_iff]

/-- The test of rule R162 is that of rule R161 on the complement: where the signs of `a` and `r` differ, `m` has the
sign of `r` exactly when it has not that of `a`. -/
theorem signTest_complement (a m r : Byte) :
    (a ^^^ m) &&& (a ^^^ r) &&& 0x80 = (a ^^^ r) &&& (~~~m ^^^ r) &&& 0x80 := by
  congr 1
  ext k hk
  simp only [BitVec.getElem_and, BitVec.getElem_xor, BitVec.getElem_not]
  cases a[k] <;> cases m[k] <;> cases r[k] <;> rfl

theorem complement_toInt (m : Byte) : (~~~m).toInt = -m.toInt - 1 := by
  have hm := m.isLt
  rw [BitVec.toInt_eq_toNat_cond, BitVec.toInt_eq_toNat_cond, BitVec.toNat_not]
  omega

theorem complement_eq_ofNat (m : Byte) : ~~~m = BitVec.ofNat 8 (255 - m.toNat) := by
  apply BitVec.eq_of_toNat_eq
  rw [BitVec.toNat_not, BitVec.toNat_ofNat]
  omega

namespace Machine

section Sums

variable (a m : Byte) (c : Bool) (f : Flags)

/-- The signed sum differs from the unsigned one by multiples of 256, so both have the same low byte. -/
theorem adcResult_eq_ofInt : adcResult a m c = BitVec.ofInt 8 (a.toInt + m.toInt + c.toNat) := by
  rw [adcResult, adcSum, BitVec.ofNat_add, BitVec.ofNat_add, BitVec.ofInt_add, BitVec.ofInt_add, BitVec.ofInt_toInt,
    BitVec.ofInt_toInt, BitVec.ofInt_natCast, BitVec.ofNat_toNat, BitVec.ofNat_toNat, BitVec.setWidth_eq,
    BitVec.setWidth_eq]

/-- The signed sum lies between -256 and 255, so its byte has the wrong sign exactly where it leaves -128 to 127. -/
theorem adcOverflow_iff :
    (a ^^^ adcResult a m c) &&& (m ^^^ adcResult a m c) &&& 0x80 ≠ 0 ↔
      (a.toInt + m.toInt + c.toNat < -128 ∨ 127 < a.toInt + m.toInt + c.toNat) := by
  have ha : -128 ≤ a.toInt ∧ a.toInt < 128 := ⟨a.le_toInt, a.toInt_lt⟩
  have hm : -128 ≤ m.toInt ∧ m.toInt < 128 := ⟨m.le_toInt, m.toInt_lt⟩
  have hc := c.toNat_lt
  rw [signTest_iff, adcResult_eq_ofInt, BitVec.toInt_ofInt, Int.bmod_def]
  omega

theorem adcFlags_eq_nz :
    adcFlags f a m = Claims.nz
      { f with
        c := decide (255 < adcSum a m f.c)
        v := decide (a.toInt + m.toInt + f.c.toNat < -128 ∨ 127 < a.toInt + m.toInt + f.c.toNat) }
      (adcResult a m f.c) := by
  rw [adcFlags, Flags.setNZ_eq_nz, bne_eq_decide_of_iff (adcOverflow_iff a m f.c)]

theorem sbcDiff_eq_adcSum : sbcDiff a m c = adcSum a (~~~m) c - 256 := by
  rw [sbcDiff, adcSum, BitVec.toNat_not]
  omega

theorem sbcResult_eq_adcResult : sbcResult a m c = adcResult a (~~~m) c := by
  apply BitVec.eq_of_toNat_eq
  rw [sbcResult, sbcDiff_eq_adcSum, adcResult, BitVec.toNat_ofInt, BitVec.toNat_ofNat]
  omega

/-- SBC is ADC of the complement (rule R162). -/
theorem sbcFlags_eq_adcFlags : sbcFlags f a m = adcFlags f a (~~~m) := by
  have carry : sbcDiff a m f.c ≥ 0 ↔ adcSum a (~~~m) f.c > 0xFF := by
    rw [sbcDiff_eq_adcSum]
    omega
  simp only [sbcFlags, adcFlags, sbcResult_eq_adcResult, signTest_complement, carry]

theorem sbcOverflow_iff :
    (a ^^^ m) &&& (a ^^^ sbcResult a m c) &&& 0x80 ≠ 0 ↔
      (a.toInt - m.toInt - (1 - c.toNat) < -128 ∨ 127 < a.toInt - m.toInt - (1 - c.toNat)) := by
  have signed : a.toInt + (~~~m).toInt + c.toNat = a.toInt - m.toInt - (1 - c.toNat) := by
    rw [complement_toInt]
    omega
  rw [signTest_complement, sbcResult_eq_adcResult, adcOverflow_iff, signed]

theorem sbcFlags_eq_nz :
    sbcFlags f a m = Claims.nz
      { f with
        c := decide (0 ≤ sbcDiff a m f.c)
        v := decide (a.toInt - m.toInt - (1 - f.c.toNat) < -128 ∨ 127 < a.toInt - m.toInt - (1 - f.c.toNat)) }
      (sbcResult a m f.c) := by
  rw [sbcFlags, Flags.setNZ_eq_nz, bne_eq_decide_of_iff (sbcOverflow_iff a m f.c)]

end Sums

/-- Settles O13: the model's flags are those of the signed sum, and the test on the bits is its range. -/
theorem addWithCarry : Obligations.AddWithCarry := by
  refine ⟨rfl, fun i src s hmn hsrc => ⟨?next, adcOverflow_iff s.a (operand8 src s) s.flags.c⟩⟩
  rw [exec_eq_operate, hmn, operate, hsrc, Option.map_some, Option.getD_some, adc, adcFlags_eq_nz]
  rfl

/-- Settles O14: as for ADC; and with an immediate operand both instructions give one result and the same flags. -/
theorem subtractWithBorrow : Obligations.SubtractWithBorrow := by
  refine ⟨rfl, fun i src s hmn hsrc => ⟨?next, sbcOverflow_iff s.a (operand8 src s) s.flags.c⟩, fun m s => ?complement⟩
  case next =>
    rw [exec_eq_operate, hmn, operate, hsrc, Option.map_some, Option.getD_some, sbc, sbcFlags_eq_nz]
    rfl
  case complement =>
    show Host.Outcome.next (sbc (.imm m) s) = .next (adc (.imm (BitVec.ofNat 8 (255 - m.toNat))) s)
    rw [← complement_eq_ofNat, sbc, sbcResult_eq_adcResult, sbcFlags_eq_adcFlags]
    rfl

end Machine
end Sys2Proof
end

section
/-! SUPPORT. Logic, comparison, increment and decrement (41_arithmetic_logic.md rules R164 to R178): the flags of a
comparison as facts of the integers, and a byte stored together with flags. -/

namespace Sys2Proof

/-- A byte difference is the difference of the integers modulo 256. -/
theorem sub_toNat_emod (r m : Byte) : ((r - m).toNat : Int) = ((r.toNat : Int) - m.toNat) % 256 := by
  have hm := m.isLt
  rw [BitVec.toNat_sub]
  omega

namespace Machine

theorem compareFlags_eq (f : Flags) (r m : Byte) :
    compareFlags f r m =
      { f with
        c := decide (m.toNat ≤ r.toNat)
        z := decide (r = m)
        n := decide (128 ≤ ((r.toNat : Int) - m.toNat) % 256) } := by
  rw [compareFlags, Flags.setNZ_eq_nz, Claims.nz, ← sub_toNat_emod]
  simp only [sub_eq_zero, ge_iff_le, Nat.ofNat_le_cast]

/-- Settles O17: each mnemonic's operation compares its register with the instruction's source. -/
theorem comparesSetCarryZeroNegative : Obligations.ComparesSetCarryZeroNegative := by
  refine ⟨rfl, rfl, rfl, fun i src s hsrc => ⟨fun hmn => ?cmp, fun hmn => ?cpx, fun hmn => ?cpy⟩⟩
  all_goals rw [exec_eq_operate, hmn, operate, hsrc, Option.map_some, Option.getD_some]
  case cmp => rw [cmp, compareFlags_eq, State.withFlags]
  case cpx => rw [cpx, compareFlags_eq, State.withFlags]
  case cpy => rw [cpy, compareFlags_eq, State.withFlags]

/-- Settles O15: each mnemonic's operation writes its result to `A`, then `Z` and `N`. -/
theorem logicWithAccumulator : Obligations.LogicWithAccumulator := by
  refine ⟨rfl, rfl, rfl, fun i src s hsrc => ⟨fun hmn => ?and, fun hmn => ?ora, fun hmn => ?eor⟩⟩
  all_goals rw [exec_eq_operate, hmn, operate, hsrc]
  case and => exact congrArg Host.Outcome.next (s.withA_setNZ (s.a &&& operand8 src s))
  case ora => exact congrArg Host.Outcome.next (s.withA_setNZ (s.a ||| operand8 src s))
  case eor => exact congrArg Host.Outcome.next (s.withA_setNZ (s.a ^^^ operand8 src s))

/-- Settles O16: the operation writes the flags alone, from the byte at the effective address. -/
theorem bitTestReadsMemoryBits : Obligations.BitTestReadsMemoryBits := by
  refine ⟨rfl, fun i m s hmn hop => ?_⟩
  rw [exec_eq_operate, hmn, hop]
  show Host.Outcome.next (s.withFlags (bitFlags s.flags s.a (s.memRead (ea m s)))) = _
  rw [bitFlags, beq_eq_decide, State.withFlags]

/-- A byte write followed by `setNZ` is a store of that byte and the flags of rule R27. -/
theorem State.storesByte_memWrite_setNZ (s : State) (a : Addr) (v : Byte) :
    Claims.StoresByte s ((s.memWrite a v).setNZ v) a v (Claims.nz s.flags v) := by
  obtain ⟨stored, frame, rest⟩ := s.storesByte_memWrite v a
  refine ⟨stored, frame, ?_⟩
  rw [State.setNZ_eq_nz, rest]

/-- Settles O18: the old byte and one, or less one, is stored where it was read, then `Z` and `N`. -/
theorem memoryIncrementAndDecrement : Obligations.MemoryIncrementAndDecrement := by
  refine ⟨rfl, rfl, fun i m s hop => ?_⟩
  rw [ofNat_toNat_add_one, ofInt_toNat_sub_one]
  refine ⟨fun hmn => ⟨incMem m s, ?inc, s.storesByte_memWrite_setNZ (ea m s) (s.memRead (ea m s) + 1)⟩,
    fun hmn => ⟨decMem m s, ?dec, s.storesByte_memWrite_setNZ (ea m s) (s.memRead (ea m s) - 1)⟩⟩
  all_goals rw [exec_eq_operate, hmn, hop]; rfl

/-- Settles O19: the index register and one, or less one, is written back, then `Z` and `N`. -/
theorem indexIncrementAndDecrement : Obligations.IndexIncrementAndDecrement := by
  refine ⟨rfl, rfl, rfl, rfl, fun s => ?_⟩
  simp only [ofNat_toNat_add_one, ofInt_toNat_sub_one]
  refine ⟨?inx, ?iny, ?dex, ?dey⟩
  case inx => exact congrArg Host.Outcome.next (s.withX_setNZ (s.x + 1))
  case iny => exact congrArg Host.Outcome.next (s.withY_setNZ (s.y + 1))
  case dex => exact congrArg Host.Outcome.next (s.withX_setNZ (s.x - 1))
  case dey => exact congrArg Host.Outcome.next (s.withY_setNZ (s.y - 1))

end Machine
end Sys2Proof
end

section
/-! SUPPORT. The decimal flag (41_arithmetic_logic.md rule R163): each operation, run with another `D`, gives the same
state but for `D`; and where `D` stands in the pushed status byte. -/

namespace Sys2Proof

/-- The flags below bit 3 sum to less than 8 and those above it to a multiple of 16, so bit 3 is `D`. -/
theorem Flags.pack_getLsbD_three (f : Flags) : f.pack.getLsbD 3 = f.d := by
  have hi := f.i.toNat_lt
  have hz := f.z.toNat_lt
  have hc := f.c.toNat_lt
  have hd := f.d.toNat_lt
  have quotient : f.pack.toNat / 2 ^ 3 % 2 = f.d.toNat := by
    rw [f.pack_toNat]
    omega
  rw [← BitVec.testBit_toNat, Nat.testBit_eq_decide_div_mod_eq, quotient]
  cases f.d <;> rfl

namespace Machine

/-- The state with another `D`. -/
def State.withD (s : State) (d : Bool) : State := s.withFlags { s.flags with d := d }

/-- The mnemonics that write `D`: the two that set and clear it and the two that pop it. -/
def writersOfD : List Mnemonic := [.sed, .cld, .plp, .rti]

section Decimal

variable (s : State) (d : Bool)

theorem ea_withD (m : MemOperand) : ea m (s.withD d) = ea m s := by
  cases m <;> rfl

theorem operand8_withD (src : Source) : operand8 src (s.withD d) = operand8 src s := by
  cases src with
  | imm op => rfl
  | acc => rfl
  | mem m => exact congrArg s.memRead (ea_withD s d m)

theorem branch_withD (cond : Bool) (op : Byte) : branch cond op (s.withD d) = (branch cond op s).withD d := by
  cases cond <;> rfl

theorem modifyInPlace_withD (p : Place) (f : Byte → Bool → Shifted) :
    modifyInPlace p f (s.withD d) = (modifyInPlace p f s).withD d := by
  cases p with
  | acc => rfl
  | mem m =>
    simp only [modifyInPlace, ea_withD]
    rfl

/-- The instructions that write `D` leave the same state whatever `D` was. -/
theorem operate_withD_of_writer {mn : Mnemonic} (h : mn ∈ writersOfD) (o : Operand) :
    operate mn o (s.withD d) = operate mn o s := by
  fin_cases h <;> rfl

theorem operate_withD_of_nonWriter {mn : Mnemonic} (h : mn ∉ writersOfD) (hphp : mn ≠ .php) (hbrk : mn ≠ .brk)
    (o : Operand) : operate mn o (s.withD d) = (operate mn o s).withD d := by
  cases mn <;> simp only [operate]
  case sed | cld | plp | rti => exact absurd (by decide) h
  case php => exact absurd rfl hphp
  case brk => exact absurd rfl hbrk
  case lda | ldx | ldy | adc | sbc | and | ora | eor | bit | cmp | cpx | cpy =>
    cases o.source? with
    | none => rfl
    | some src =>
      simp only [Option.map_some, Option.getD_some, lda, ldx, ldy, adc, sbc, andA, oraA, eorA, bitTest, cmp, cpx, cpy,
        operand8_withD]
      rfl
  case sta | stx | sty | inc | dec =>
    cases o.mem? with
    | none => rfl
    | some m =>
      simp only [Option.map_some, Option.getD_some, sta, stx, sty, incMem, decMem, ea_withD]
      rfl
  case asl | lsr | rol | ror =>
    cases o.place? with
    | none => rfl
    | some p => exact modifyInPlace_withD s d p _
  case bcc | bcs | beq | bne | bmi | bpl | bvc | bvs =>
    split
    · exact branch_withD s d _ _
    · rfl
  case jmp => split <;> rfl
  case jsr => split <;> rfl
  all_goals rfl

/-- The third slot of an interrupt entry holds the status byte of before. -/
theorem interruptEntry_memRead_statusSlot : (interruptEntry s).memRead (stackSlot s 2) = s.flags.pack := by
  rw [interruptEntry_memRead, if_pos rfl]

/-- BRK pushes the status byte with `B` set. -/
theorem State.brk_memRead_statusSlot : (brk s).memRead (stackSlot s 2) = { s.flags with b := true }.pack :=
  interruptEntry_memRead_statusSlot ((s.withPc (s.pc + 1)).withFlags { s.flags with b := true })

end Decimal

/-- Settles O20: two runs that differ in `D` stay equal but for `D`, and a writer of `D` makes them equal; the pushed
byte has `D` as its bit 3. -/
theorem decimalFlagHasNoEffect : Obligations.DecimalFlagHasNoEffect := by
  refine ⟨fun i s d hphp hbrk => ⟨_, exec_eq_operate i s, ?independent⟩, fun s => ⟨⟨_, rfl, rfl⟩, ⟨_, rfl, rfl⟩,
    ⟨_, rfl, ?php⟩, ⟨_, rfl, ?brk⟩, ⟨_, rfl, rfl⟩, ⟨_, rfl, rfl⟩⟩⟩
  case independent =>
    rw [exec_eq_operate]
    show Host.Outcome.next (operate i.mnemonic i.operand (s.withD d)) = .next (if i.mnemonic ∈ writersOfD then _ else _)
    split
    · next h => rw [operate_withD_of_writer s d h]
    · next h => rw [operate_withD_of_nonWriter s d h hphp hbrk]; rfl
  case php => rw [s.memRead_push8_stackSlot, Flags.pack_getLsbD_three]
  case brk => rw [s.brk_memRead_statusSlot, Flags.pack_getLsbD_three]

end Machine
end Sys2Proof
end

section
/-! SUPPORT. Shifts and rotates (42_shift_rotate.md rules R190 to R194): what `Modify` leaves in the accumulator and in
memory, for any shift, and the rotated byte as a sum, the bit that enters being one the shifted byte leaves clear. -/

namespace Sys2Proof.Machine

/-- Doubling leaves bit 0 clear. -/
theorem shiftRol_eq (old : Byte) (c : Bool) :
    shiftRol old c = ⟨BitVec.ofNat 8 (old.toNat * 2 + c.toNat), old.getLsbD 7⟩ := by
  have sum_eq_or : old.toNat * 2 + c.toNat = old.toNat * 2 ||| c.toNat := by
    rw [Nat.mul_comm]
    exact Nat.two_pow_add_eq_or_of_lt (i := 1) c.toNat_lt old.toNat
  rw [shiftRol, sum_eq_or, BitVec.ofNat_or]

/-- Halving leaves bit 7 clear. -/
theorem shiftRor_eq (old : Byte) (c : Bool) :
    shiftRor old c = ⟨BitVec.ofNat 8 (old.toNat / 2 + c.toNat * 128), old.getLsbD 0⟩ := by
  have half_lt : old.toNat / 2 < 2 ^ 7 := Nat.div_lt_of_lt_mul old.isLt
  have sum_eq_or : old.toNat / 2 + c.toNat * 128 = old.toNat / 2 ||| c.toNat * 128 := by
    rw [Nat.add_comm, Nat.or_comm, Nat.mul_comm]
    exact Nat.two_pow_add_eq_or_of_lt half_lt c.toNat
  rw [shiftRor, sum_eq_or, BitVec.ofNat_or]

theorem shiftFlags_eq_nz (f : Flags) (r : Shifted) : shiftFlags f r = Claims.nz { f with c := r.carry } r.value :=
  Flags.setNZ_eq_nz _ r.value

section Modify

variable (f : Byte → Bool → Shifted) (s : State)

theorem modifyInPlace_acc :
    modifyInPlace .acc f s =
      { s with
        a := (f s.a s.flags.c).value
        flags := Claims.nz { s.flags with c := (f s.a s.flags.c).carry } (f s.a s.flags.c).value } := by
  rw [modifyInPlace, shiftFlags_eq_nz]
  rfl

/-- `Modify` on memory stores the new byte at the one address it read the old byte from. -/
theorem storesByte_modifyInPlace_mem (m : MemOperand) :
    Claims.StoresByte s (modifyInPlace (.mem m) f s) (ea m s) (f (s.memRead (ea m s)) s.flags.c).value
      (Claims.nz { s.flags with c := (f (s.memRead (ea m s)) s.flags.c).carry }
        (f (s.memRead (ea m s)) s.flags.c).value) := by
  obtain ⟨stored, frame, rest⟩ := s.storesByte_memWrite (f (s.memRead (ea m s)) s.flags.c).value (ea m s)
  refine ⟨stored, frame, ?_⟩
  rw [modifyInPlace, shiftFlags_eq_nz, rest]
  rfl

end Modify

/-- A mnemonic whose operation is `Modify` with a shift does what rule R190 says of that shift's value and carry. -/
theorem shiftClaim_of_operate_eq_modifyInPlace {mn : Mnemonic} {f : Byte → Bool → Shifted}
    {value : Byte → Bool → Byte} {carry : Byte → Bool}
    (modifies : ∀ o p s, o.place? = some p → operate mn o s = modifyInPlace p f s)
    (shifts : ∀ old c, f old c = ⟨value old c, carry old⟩) : Claims.ShiftClaim mn value carry := by
  refine ⟨fun i s hmn hop => ?acc, fun i m s hmn hop => ⟨modifyInPlace (.mem m) f s, ?next, ?stores⟩⟩
  case acc => rw [exec_eq_operate, hmn, hop, modifies .acc .acc s rfl, modifyInPlace_acc, shifts]
  case next => rw [exec_eq_operate, hmn, hop, modifies (.mem m) (.mem m) s rfl]
  case stores =>
    have stores := storesByte_modifyInPlace_mem f s m
    rwa [shifts] at stores

/-- Settles O21: each mnemonic's operation is `Modify` with its shift, and the rotates' bit enters as a summand. -/
theorem shiftsAndRotates : Obligations.ShiftsAndRotates := by
  refine ⟨rfl, rfl, rfl, rfl,
    shiftClaim_of_operate_eq_modifyInPlace (f := shiftAsl) ?asl fun _ _ => rfl,
    shiftClaim_of_operate_eq_modifyInPlace (f := shiftLsr) ?lsr fun _ _ => rfl,
    shiftClaim_of_operate_eq_modifyInPlace ?rol shiftRol_eq,
    shiftClaim_of_operate_eq_modifyInPlace ?ror shiftRor_eq⟩
  all_goals
    intro o p s hplace
    rw [operate, hplace, Option.map_some, Option.getD_some]

end Sys2Proof.Machine
end

section
/-! SUPPORT. Stack and flag instructions (43_stack_flags.md): a push as a store at the stack slot, a byte pulled into
`A`, and what the interrupt flag decides about a request (60_exceptions.md rule R272) but not about BRK. -/

namespace Sys2Proof.Machine

section Stack

variable (s : State)

theorem State.push8_sameMemoryOutside_stackSlot (v : Byte) : SameMemoryOutside [stackSlot s 0] s (s.push8 v) := by
  rw [stackSlot_zero]
  exact s.push8_sameMemoryOutside v

theorem State.popped8_eq_memRead_pulledSlot : s.popped8 = s.memRead (pulledSlot s 1) :=
  s.popped8_def

theorem State.pop8_withA_setNZ (v : Byte) :
    (s.pop8.withA v).setNZ v = { s with a := v, sp := s.sp + 1, flags := Claims.nz s.flags v } :=
  s.pop8.withA_setNZ v

end Stack

section Request

variable (s : State)

theorem interruptEntry_sp : (interruptEntry s).sp = s.sp - 3 := by
  obtain ⟨-, -, -, entered, -⟩ := interruptEntry_fields s
  exact entered

theorem interruptEntry_flags : (interruptEntry s).flags = { s.flags with i := true } := by
  obtain ⟨-, -, -, -, entered, -⟩ := interruptEntry_fields s
  exact entered

/-- BRK enters through the shared sequence whatever `I` is. -/
theorem brk_sp : (brk s).sp = s.sp - 3 :=
  interruptEntry_sp ((s.withPc (s.pc + 1)).withFlags { s.flags with b := true })

variable {s}

theorem requestInterrupt_of_masked (h : s.flags.i = true) : requestInterrupt s = s :=
  if_pos h

theorem requestInterrupt_of_unmasked (h : s.flags.i = false) :
    requestInterrupt s = announceJump .interruptRequest s (interruptEntry s) :=
  if_neg (ne_true_of_eq_false h)

/-- An accepted request announces its jump, which changes neither the flags nor `SP`. -/
theorem requestInterrupt_flags_of_unmasked (h : s.flags.i = false) :
    (requestInterrupt s).flags = { s.flags with i := true } := by
  rw [requestInterrupt_of_unmasked h]
  exact interruptEntry_flags s

theorem requestInterrupt_sp_of_unmasked (h : s.flags.i = false) : (requestInterrupt s).sp = s.sp - 3 := by
  rw [requestInterrupt_of_unmasked h]
  exact interruptEntry_sp s

end Request

/-- Settles O22: PHA is one push of `A`; PLA pops into `A`, then sets `Z` and `N` from it. -/
theorem pushAndPullAccumulator : Obligations.PushAndPullAccumulator := by
  refine ⟨rfl, rfl, fun s => ⟨⟨s.push8 s.a, exec_eq_operate .pha s, ?slot, ?frame, s.push8_eq s.a⟩, ?pla⟩⟩
  case slot => exact s.memRead_push8_stackSlot s.a
  case frame => exact s.push8_sameMemoryOutside_stackSlot s.a
  case pla =>
    rw [exec_eq_operate, ← s.popped8_eq_memRead_pulledSlot]
    exact congrArg Host.Outcome.next (s.pop8_withA_setNZ s.popped8)

/-- Settles O24: each instruction is one flag write; the `I` it leaves decides the request, and BRK enters
without reading it. -/
theorem flagInstructionsWriteOneFlag : Obligations.FlagInstructionsWriteOneFlag := by
  refine ⟨rfl, rfl, rfl, rfl, rfl, rfl, rfl, fun s =>
    ⟨rfl, rfl, rfl, rfl, rfl, rfl, rfl, fun t ht => ?afterCli, fun t ht => ?afterSei⟩⟩
  case afterCli =>
    obtain rfl := Host.Outcome.next.inj ht
    refine ⟨?masks, requestInterrupt_sp_of_unmasked rfl⟩
    rw [requestInterrupt_flags_of_unmasked rfl]
  case afterSei =>
    obtain rfl := Host.Outcome.next.inj ht
    exact ⟨requestInterrupt_of_masked rfl, brk _, exec_eq_operate .brk _, brk_sp _⟩

end Sys2Proof.Machine
end

section
/-! SUPPORT. Control transfer (44_control_transfer.md rules R221 to R232): the relative target as a sum of integers, an
address pushed and pulled, and what JSR leaves. -/

namespace Sys2Proof.Machine

/-- The target of rule R112 as the integer sum of `PC` and the signed displacement, reduced modulo 65536. -/
theorem relTarget_eq_ofInt (op : Byte) (s : State) :
    relTarget op s = BitVec.ofInt 16 ((s.pc.toNat : Int) + op.toInt) := by
  rw [relTarget, sext8, BitVec.signExtend, BitVec.ofInt_add, BitVec.ofInt_natCast, BitVec.ofNat_toNat,
    BitVec.setWidth_eq]

/-- A branch writes `PC` alone, taken or not (rule R224). -/
theorem branch_eq (cond : Bool) (op : Byte) (s : State) :
    branch cond op s =
      { s with pc := if cond then BitVec.ofInt 16 ((s.pc.toNat : Int) + op.toInt) else s.pc } := by
  cases cond with
  | false => rfl
  | true => exact congrArg s.withPc (relTarget_eq_ofInt op s)

theorem branchClaim_of_exec_eq_branch {i : Byte → Instr} {cond : Flags → Bool}
    (h : ∀ (op : Byte) (s : State), exec (i op) s = .next (branch (cond s.flags) op s)) :
    Claims.BranchClaim i cond := by
  intro op s
  rw [h, branch_eq]

/-- Settles O28: each of the eight is the common branch of rule R224 on its own flag. -/
theorem branchesTestOneFlag : Obligations.BranchesTestOneFlag :=
  ⟨rfl, rfl, rfl, rfl, rfl, rfl, rfl, rfl,
    branchClaim_of_exec_eq_branch fun _ _ => rfl, branchClaim_of_exec_eq_branch fun _ _ => rfl,
    branchClaim_of_exec_eq_branch fun _ _ => rfl, branchClaim_of_exec_eq_branch fun _ _ => rfl,
    branchClaim_of_exec_eq_branch fun _ _ => rfl, branchClaim_of_exec_eq_branch fun _ _ => rfl,
    branchClaim_of_exec_eq_branch fun _ _ => rfl, branchClaim_of_exec_eq_branch fun _ _ => rfl⟩

section Words

variable (s : State) (w : Addr)

/-- A pair read from memory crosses a page boundary, and wraps at the end of memory, like any two addresses. -/
theorem State.memRead16_eq_word :
    s.memRead16 w = word (s.mem.read ((w.toNat + 1) % 65536)) (s.mem.read w.toNat) := by
  have next : (w + 1).toNat = (w.toNat + 1) % 65536 := BitVec.toNat_add w 1
  rw [State.memRead16, State.memRead, State.memRead, next]

theorem State.memRead_push16_stackSlot_zero : (s.push16 w).memRead (stackSlot s 0) = hi8 w := by
  rw [State.memRead_push16, if_neg (stackSlot_ne s (by decide)), if_pos rfl]

theorem State.memRead_push16_stackSlot_one : (s.push16 w).memRead (stackSlot s 1) = lo8 w := by
  rw [State.memRead_push16, if_pos rfl]

theorem State.push16_sameMemoryOutside : SameMemoryOutside [stackSlot s 0, stackSlot s 1] s (s.push16 w) := by
  intro a ha
  obtain ⟨notHigh, notLow⟩ : a ≠ stackSlot s 0 ∧ a ≠ stackSlot s 1 := by simpa using ha
  rw [State.memRead_push16, if_neg notLow, if_neg notHigh]

/-- What JSR leaves alone (rule R222): its push changes only memory, notifications and `SP`. -/
theorem jsr_eq :
    jsr w s = { s with mem := (jsr w s).mem, delivered := (jsr w s).delivered, sp := s.sp - 2, pc := w } :=
  congrArg (fun t : State => t.withPc w) (s.push16_eq (s.pc - s.cfg.returnBias))

end Words

/-- Settles O25: JMP loads `PC` with its operand, or with the pair read there. -/
theorem jumpsLoadPc : Obligations.JumpsLoadPc := by
  refine ⟨rfl, fun op s => ⟨exec_eq_operate (.jmpAbs op) s, ?indirect⟩⟩
  rw [← s.memRead16_eq_word]
  exact exec_eq_operate (.jmpInd op) s

/-- Settles O26: JSR is one 16-bit push of the return address, then a write of `PC`, which memory does not see. -/
theorem jumpToSubroutinePushesReturnAddress : Obligations.JumpToSubroutinePushesReturnAddress := by
  refine ⟨rfl, fun op s => ?_⟩
  intro ret
  exact ⟨jsr op s, exec_eq_operate (.jsr op) s, s.memRead_push16_stackSlot_zero ret,
    s.memRead_push16_stackSlot_one ret, s.push16_sameMemoryOutside ret, jsr_eq s op⟩

/-- A sum of 16-bit words is the integer sum modulo 65536, a word being `h * 256 + l`. -/
theorem word_add_eq_ofNat (h l : Byte) (w : Addr) :
    word h l + w = BitVec.ofNat 16 (h.toNat * 256 + l.toNat + w.toNat) := by
  apply BitVec.eq_of_toNat_eq
  rw [BitVec.toNat_add, word_toNat, BitVec.toNat_ofNat]

/-- Settles O27: RTS pops a word and adds RETURN_BIAS to it. -/
theorem returnFromSubroutinePopsAddress : Obligations.ReturnFromSubroutinePopsAddress := by
  refine ⟨rfl, fun s => ?_⟩
  intro l h
  rw [← word_add_eq_ofNat]
  exact (exec_eq_operate .rts s).trans (congrArg Host.Outcome.next (returnFromSubroutine_eq s))

end Sys2Proof.Machine
end

section
/-! SUPPORT. RTI (45_system.md rule R242): the frame it pops, named by the slots above the stack pointer, and the flags
as bits of the status byte (10_state.md rule R30). -/

namespace Sys2Proof

/-- Bit 5 of the byte goes to no flag. -/
theorem Flags.unpack_eq (b : Byte) :
    Flags.unpack b =
      { n := b.getLsbD 7, v := b.getLsbD 6, b := b.getLsbD 4, d := b.getLsbD 3, i := b.getLsbD 2,
        z := b.getLsbD 1, c := b.getLsbD 0 } := rfl

namespace Machine

/-- RTI as one update of the state: the flags from the slot above `SP`, then the address from the next two. -/
theorem exec_rti_eq (s : State) :
    exec .rti s = .next { s with
      sp := s.sp + 3
      flags := Flags.unpack (s.memRead (pulledSlot s 1))
      pc := word (s.memRead (pulledSlot s 3)) (s.memRead (pulledSlot s 2)) } :=
  (exec_eq_operate .rti s).trans (congrArg Host.Outcome.next (returnFromInterrupt_eq s))

/-- Settles O32: RTI is one update of `SP`, flags and `PC`, and the flags it loads are the popped byte's bits. -/
theorem returnFromInterruptRestoresFlagsAndPc : Obligations.ReturnFromInterruptRestoresFlagsAndPc := by
  refine ⟨rfl, fun s => ?_⟩
  intro p l h
  rw [exec_rti_eq, Flags.unpack_eq]

end Machine
end Sys2Proof
end

section
/-! SUPPORT. A trap visit (60_exceptions.md rules R282 and R283): what the hook's effect decides, and the end-with
instruction on the state it leaves. -/

namespace Sys2Proof.Machine

/-- What a hook decides: registers, flags, and memory by its pokes in order. -/
theorem applyHook_visible (e : HookEffect) (s : State) :
    (applyHook e s).a = e.a ∧ (applyHook e s).x = e.x ∧ (applyHook e s).y = e.y ∧ (applyHook e s).sp = e.sp ∧
    (applyHook e s).pc = e.pc ∧ (applyHook e s).flags = e.flags ∧
    (applyHook e s).mem = e.pokes.foldl (fun m p => m.write p.1.toNat p.2) s.mem := by
  rw [applyHook_eq]
  exact ⟨rfl, rfl, rfl, rfl, rfl, rfl, rfl⟩

@[simp] theorem performEndWith_opCount (e : EndWith) (s : State) : (performEndWith e s).opCount = s.opCount := by
  rw [performEndWith_eq]

/-- Besides its notifications, a visit is the end-with instruction on the hook's state, and one more operation. -/
theorem trapVisit_eq (t : Trap) (s : State) :
    trapVisit t s =
      { performEndWith t.endWith (afterHook t s) with
        opCount := (afterHook t s).opCount + 1
        delivered := (trapVisit t s).delivered } := by
  rw [← performEndWith_opCount t.endWith (afterHook t s)]
  rfl

theorem step_of_trapAt {s : State} {t : Trap} (ht : trapAt s.trapTable s.pc = some t) :
    step s = .next (trapVisit t s) := by
  simp only [step, ht]

/-- Settles O43: the hook's effect is applied to the state of the visit, whose memory the events before it leave alone,
and RTS and RTI are `performEndWith`. -/
theorem trapVisitRunsHookThenEndWith : Obligations.TrapVisitRunsHookThenEndWith := by
  intro s t ht e h
  obtain ⟨ha, hx, hy, hsp, hpc, hflags, hmem⟩ :=
    applyHook_visible e (s.emit (Config.trapEventsBefore s.hookTick s.view))
  refine ⟨ha, hx, hy, hsp, hpc, hflags, hmem, performEndWith t.endWith h, trapVisit t s, ?endWith,
    step_of_trapAt ht, trapVisit_eq t s⟩
  case endWith =>
    cases t.endWith with
    | rts => exact exec_eq_operate .rts h
    | rti => exact exec_eq_operate .rti h

end Sys2Proof.Machine
end

section
/-! SUPPORT. Encoding and decoding as inverses (30_encoding.md sections 1 to 4): an instruction is its row of the table
with its operand value, and the operand bytes are what the decoder takes back. -/

namespace Sys2Proof

section Rows

variable (i : Instr)

theorem Instr.wf_eq_true : i.wf = true := by
  cases i <;> rfl

/-- The row of an instruction, with its operand value, is that instruction's own. -/
theorem Instr.ofParts_parts : Instr.ofParts i.mnemonic i.mode i.opValue = some i := by
  cases i <;>
    simp only [Instr.mnemonic, Instr.mode, Instr.opValue, Instr.parts, Instr.ofParts, lo8_zext]

theorem Instr.operand_mode : i.operand.mode = i.mode :=
  beq_iff_eq.mp (Bool.and_eq_true_iff.mp i.wf_eq_true).2

theorem Instr.supports_mode : supports i.mnemonic i.mode = true := by
  rw [← i.operand_mode]
  exact (Bool.and_eq_true_iff.mp i.wf_eq_true).1

theorem encode_eq_cons :
    ∃ b, encodeByte i.mnemonic i.mode = some b ∧ encode i = b :: operandBytes i.mode i.opValue := by
  obtain ⟨b, hb⟩ := Option.isSome_iff_exists.mp i.supports_mode
  exact ⟨b, hb, by rw [encode, hb]⟩

end Rows

/-- The bytes of a row decode to the row's instruction, whatever follows them. -/
theorem decode_of_row {mn : Mnemonic} {mode : Mode} {op : Addr} {b : Byte} {i : Instr}
    (hb : encodeByte mn mode = some b) (hi : Instr.ofParts mn mode op = some i) (rest : List Byte) :
    decode (b :: operandBytes mode op ++ rest) = .ok (i, rest) := by
  simp only [List.cons_append, decode, decodeByte_of_encodeByte hb, takeOperand_operandBytes, ofParts_heldValue, hi]

theorem decode_encode_append (i : Instr) (rest : List Byte) : decode (encode i ++ rest) = .ok (i, rest) := by
  obtain ⟨b, hb, bytes⟩ := encode_eq_cons i
  rw [bytes]
  exact decode_of_row hb i.ofParts_parts rest

/-- Settles O37: the encoding byte is the table's for the instruction's row, and the row's bytes decode to it. -/
theorem decodeOfEncode : Obligations.DecodeOfEncode :=
  fun i rest => ⟨i.wf_eq_true, decode_encode_append i rest⟩

end Sys2Proof
end

section
/-! SUPPORT. The decoder and the table read back: the operand bytes a value was taken from, and the row an instruction
was made from (30_encoding.md rules R90, R92, R95). -/

namespace Sys2Proof

/-- The operand value is in the bytes it was taken from, and in nothing else. -/
theorem eq_operandBytes_append_of_takeOperand {mode : Mode} {tail rest : List Byte} {op : Addr}
    (h : takeOperand mode.width tail = some (op, rest)) : tail = operandBytes mode op ++ rest := by
  cases mode <;> simp only [Mode.width, operandBytes] at h ⊢
  case imp | acc =>
    cases h
    rfl
  case imm | zp | zpx | zpy | indx | indy | rel =>
    cases tail with
    | nil => cases h
    | cons b tail =>
      cases h
      rw [lo8_zext]
      rfl
  case abs | absx | absy | ind =>
    match tail, h with
    | l :: h :: tail, rfl =>
      rw [lo8_word, hi8_word]
      rfl

/-- An instruction made from a row is of that row, with the operand value that the row's operand bytes hold. -/
theorem parts_of_ofParts {mn : Mnemonic} {mode : Mode} {op : Addr} {i : Instr}
    (h : Instr.ofParts mn mode op = some i) : i.parts = (mn, mode, heldValue mode op) := by
  cases mn <;> cases mode <;> cases h <;> rfl

/-- The operand bytes hold the value again that they hold. -/
theorem operandBytes_heldValue (mode : Mode) (op : Addr) :
    operandBytes mode (heldValue mode op) = operandBytes mode op := by
  cases mode <;> simp only [operandBytes, heldValue, Mode.width, lo8_zext]

/-- The encoding of an instruction made from a row. -/
theorem encode_of_ofParts {mn : Mnemonic} {mode : Mode} {op : Addr} {i : Instr} {b : Byte}
    (h : Instr.ofParts mn mode op = some i) (hb : encodeByte mn mode = some b) :
    encode i = b :: operandBytes mode op := by
  rw [encode, Instr.mnemonic, Instr.mode, Instr.opValue, parts_of_ofParts h, hb, operandBytes_heldValue]

/-- Settles O38: the first byte is the one of the row it selects, and the rest are the row's operand bytes. -/
theorem encodeOfDecode : Obligations.EncodeOfDecode := by
  intro bs i rest h
  obtain ⟨b, tail, mn, mode, op, rfl, hb, htail, hi⟩ := decode_ok h
  rw [encode_of_ofParts hi (encodeByte_of_decodeByte hb), eq_operandBytes_append_of_takeOperand htail,
    List.cons_append]

/-- The rows that have an instruction are those of the table. -/
theorem ofParts_isSome_eq_supports (mn : Mnemonic) (mode : Mode) (op : Addr) :
    (Instr.ofParts mn mode op).isSome = supports mn mode := by
  cases mn <;> cases mode <;> rfl

/-- An operand is that of its mode and its operand value. -/
theorem Operand.ofMode_parts (o : Operand) : Operand.ofMode o.parts.1 o.parts.2 = o := by
  rcases o with _ | _ | op | (op | op | op | op | op | op | op | op) | op | op <;>
    simp only [Operand.parts, MemOperand.parts, Operand.ofMode, lo8_zext]

theorem Operand.ofMode_heldValue (mode : Mode) (op : Addr) :
    Operand.ofMode mode (heldValue mode op) = Operand.ofMode mode op := by
  cases mode <;> simp only [Operand.ofMode, heldValue, Mode.width, lo8_zext]

/-- An instruction's operand is that of its mode, its value being what the mode holds. -/
theorem Instr.operand_parts (i : Instr) : i.operand.parts = (i.mode, i.opValue) := by
  cases i <;>
    simp only [Instr.operand, Instr.mode, Instr.opValue, Instr.parts, Operand.ofMode, Operand.parts, MemOperand.parts,
      lo8_zext]

theorem Instr.ofOperand_operand (i : Instr) : Instr.ofOperand i.mnemonic i.operand = some i := by
  rw [Instr.ofOperand, i.operand_parts, i.ofParts_parts]

/-- An instruction made from an operation is that operation. -/
theorem operation_of_ofOperand {mn : Mnemonic} {o : Operand} {i : Instr} (h : Instr.ofOperand mn o = some i) :
    i.operation = ⟨mn, o⟩ := by
  rw [Instr.operation, Instr.operand, Instr.mnemonic, Instr.mode, Instr.opValue, parts_of_ofParts h,
    Operand.ofMode_heldValue, Operand.ofMode_parts]

theorem ofOperand_isSome_eq_supports (mn : Mnemonic) (o : Operand) :
    (Instr.ofOperand mn o).isSome = supports mn o.mode :=
  ofParts_isSome_eq_supports mn o.parts.1 o.parts.2

namespace Machine

/-- Settles O57: the instruction of an operation exists exactly where the table has its pair, and it completes. -/
theorem handBuiltOperations : Obligations.HandBuiltOperations := by
  refine ⟨fun i s => ?own, fun o s => ?unsupported⟩
  case own => rw [performOperation, Instr.operation, i.ofOperand_operand]
  case unsupported =>
    rw [← ofOperand_isSome_eq_supports, performOperation]
    cases Instr.ofOperand o.mnemonic o.operand with
    | none => exact iff_of_true rfl rfl
    | some i =>
      simp only [exec_eq_operate]
      exact iff_of_false nofun nofun

end Machine
end Sys2Proof
end

section
/-! SUPPORT. Disassembly (30_encoding.md rule R119): whatever the bytes, the pieces hold them all; and a sequence of
encoded instructions is taken apart into those instructions. -/

namespace Sys2Proof.Machine

theorem encode_length_pos (i : Instr) : 0 < (encode i).length := by
  obtain ⟨b, -, bytes⟩ := encode_eq_cons i
  rw [bytes]
  exact Nat.succ_pos _

/-- A byte put in front of the pieces, in a data element of its own or in the first of them. -/
theorem flatMap_pieceBytes_addDataByte (b : Byte) (ps : List Piece) :
    (addDataByte b ps).flatMap pieceBytes = b :: ps.flatMap pieceBytes := by
  rcases ps with _ | ⟨_ | _, _⟩ <;> rfl

/-- Every piece takes at least one byte, so a piece for every byte is fuel enough. -/
theorem flatMap_pieceBytes_disassembleFrom {fuel : Nat} {bs : List Byte} (h : bs.length ≤ fuel) :
    (disassembleFrom fuel bs).flatMap pieceBytes = bs := by
  induction fuel generalizing bs with
  | zero => rw [List.length_eq_zero_iff.mp (Nat.le_zero.mp h)]; rfl
  | succ fuel ih =>
    cases bs with
    | nil => rfl
    | cons b rest =>
      rw [disassembleFrom]
      split
      next i rest' hd =>
        have whole : b :: rest = encode i ++ rest' := encodeOfDecode _ _ _ hd
        have shorter : rest'.length ≤ fuel := by
          have total := congrArg List.length whole
          have := encode_length_pos i
          rw [List.length_append] at total
          omega
        rw [List.flatMap_cons, ih shorter, whole, pieceBytes]
      next =>
        rw [flatMap_pieceBytes_addDataByte, ih (Nat.le_of_succ_le_succ h)]

theorem flatMap_pieceBytes_disassemble (bs : List Byte) : (disassemble bs).flatMap pieceBytes = bs :=
  flatMap_pieceBytes_disassembleFrom (Nat.le_refl _)

/-- Decoding takes exactly one instruction's bytes at a time. -/
theorem disassembleFrom_flatMap_encode {fuel : Nat} {is : List Instr} (h : (is.flatMap encode).length ≤ fuel) :
    disassembleFrom fuel (is.flatMap encode) = is.map .instruction := by
  induction is generalizing fuel with
  | nil => cases fuel <;> rfl
  | cons i is ih =>
    obtain ⟨b, -, bytes⟩ := encode_eq_cons i
    have decoded := decode_encode_append i (is.flatMap encode)
    rw [List.flatMap_cons] at h ⊢
    rw [bytes, List.cons_append] at h decoded ⊢
    cases fuel with
    | zero => exact absurd h (Nat.not_succ_le_zero _)
    | succ fuel =>
      have enough : (is.flatMap encode).length ≤ fuel := by
        rw [List.length_cons, List.length_append] at h
        omega
      rw [disassembleFrom, decoded, List.map_cons, ← ih enough]

theorem disassemble_flatMap_encode (is : List Instr) : disassemble (is.flatMap encode) = is.map .instruction :=
  disassembleFrom_flatMap_encode (Nat.le_refl _)

/-- The bytes of an operation are the encoding of the instruction of its pair. -/
theorem exists_instr_of_operationBytes {mn : Mnemonic} {o : Operand} {bytes : List Byte}
    (h : operationBytes mn o = .ok bytes) : ∃ i, bytes = encode i ∧ i.operation = ⟨mn, o⟩ := by
  cases hb : encodeByte mn o.mode with
  | none => simp only [operationBytes, hb, reduceCtorEq] at h
  | some b =>
    have supported : supports mn o.mode = true := by rw [supports, hb]; rfl
    obtain ⟨i, hi⟩ := Option.isSome_iff_exists.mp ((ofOperand_isSome_eq_supports mn o).trans supported)
    simp only [operationBytes, hb, Except.ok.injEq] at h
    exact ⟨i, by rw [← h, encode_of_ofParts hi hb]; rfl, operation_of_ofOperand hi⟩

/-- The bytes of a sequence of elements are the first one's and the rest's. -/
theorem elementsBytes_cons_eq_ok {p : Program} {at_ : Nat} {e : Element} {rest : List Element} {bytes : List Byte}
    (h : elementsBytes p at_ (e :: rest) = .ok bytes) :
    ∃ first more, elementBytes p at_ e = .ok first ∧ elementsBytes p (at_ + e.length) rest = .ok more ∧
      bytes = first ++ more := by
  rw [elementsBytes] at h
  cases hfirst : elementBytes p at_ e with
  | error err => rw [hfirst] at h; cases h
  | ok first =>
    cases hmore : elementsBytes p (at_ + e.length) rest with
    | error err => rw [hfirst, hmore] at h; cases h
    | ok more =>
      rw [hfirst, hmore] at h
      cases h
      exact ⟨first, more, rfl, rfl, rfl⟩

/-- Where only labels, comments and concrete operations stand, the bytes are the encodings of the operations'
instructions, in order. -/
theorem exists_instrs_of_elementsBytes {p : Program} {at_ : Nat} {es : List Element} {bytes : List Byte}
    (plain : ∀ e ∈ es, Claims.PlainElement e) (h : elementsBytes p at_ es = .ok bytes) :
    ∃ is : List Instr, bytes = is.flatMap encode ∧ is.map Instr.operation = Claims.operationsOf es := by
  induction es generalizing at_ bytes with
  | nil => cases h; exact ⟨[], rfl, rfl⟩
  | cons e rest ih =>
    obtain ⟨first, more, hfirst, hmore, rfl⟩ := elementsBytes_cons_eq_ok h
    obtain ⟨plainFirst, plainRest⟩ := List.forall_mem_cons.mp plain
    obtain ⟨is, rfl, his⟩ := ih plainRest hmore
    match e, plainFirst, hfirst with
    | .label _, _, rfl => exact ⟨is, rfl, his⟩
    | .comment _, _, rfl => exact ⟨is, rfl, his⟩
    | .operation mn (.concrete o), _, hfirst =>
      obtain ⟨i, rfl, hi⟩ := exists_instr_of_operationBytes hfirst
      exact ⟨i :: is, rfl, by rw [List.map_cons, hi, his, Claims.operationsOf]⟩

/-- Settles O60: the pieces of any bytes hold them all, and what a plain Program compiles to is a sequence of encoded
instructions, which decode one after the other. -/
theorem disassemblyRoundTrip : Obligations.DisassemblyRoundTrip := by
  refine ⟨fun p bytes h => ⟨lo8 p.start :: hi8 p.start :: bytes, ?image, ?pieces⟩, fun p bytes plain h => ?operations⟩
  case image => rw [image, h]; rfl
  case pieces => exact flatMap_pieceBytes_disassemble bytes
  case operations =>
    obtain ⟨is, rfl, his⟩ := exists_instrs_of_elementsBytes plain h
    exact ⟨is, disassemble_flatMap_encode is, his⟩

end Sys2Proof.Machine
end

section
/-! SUPPORT. The invariant, host action by host action (20_memory.md section 7, 60_exceptions.md): an image's bytes are
writes, a listener more refuses no notification, and a run is steps. -/

namespace Sys2Proof.Machine

theorem Inv_withPc {s : State} (h : s.Inv) (a : Addr) : (s.withPc a).Inv := Inv_of_same h rfl rfl rfl rfl

theorem Inv_announceJump {t : State} (h : t.Inv) (cause : JumpCause) (s : State) : (announceJump cause s t).Inv :=
  Inv_emit h _

theorem Inv_step {s t : State} (h : s.Inv) (hstep : step s = .next t) : t.Inv := by
  obtain ⟨trap, -, rfl⟩ | ⟨-, i, -, rfl⟩ := step_cases hstep
  · exact Inv_trapVisit h trap
  · exact Inv_finishInstr (Inv_operate (Inv_beginInstr h i) i.mnemonic i.operand) i _

/-- Settles O52: a step is a trap visit or an instruction between `beginInstr` and `finishInstr`; each part keeps the
invariant. -/
theorem stepKeepsInvariant : Obligations.StepKeepsInvariant :=
  fun _ _ => Inv_step

/-- An image that ends within memory is a sequence of byte writes within memory. -/
theorem wf_storeBytes {m : Memory} (hm : m.wf = true) {k : Nat} {bytes : List Byte}
    (hk : k + bytes.length ≤ 65536) : (storeBytes m k bytes).wf = true := by
  induction bytes generalizing m k with
  | nil => exact hm
  | cons b rest ih =>
    rw [List.length_cons] at hk
    exact ih (Memory.wf_write hm (by omega) b) (by omega)

theorem Inv_loadRawImage {s t : State} (h : s.Inv) {bytes : List Byte} (hload : loadRawImage bytes s = .next t) :
    t.Inv := by
  match bytes, hload with
  | l :: hi :: rest, hload =>
    rw [loadRawImage] at hload
    split at hload
    next fits =>
      cases hload
      exact Inv_emit (s := s.withMem _) ⟨wf_storeBytes h.memory fits, h.traps, h.deliveries⟩ _
    next => cases hload

theorem Inv_register {s : State} (h : s.Inv) (a : Addr) (r : HostRoutine) : (register a r s).Inv := by
  have registered : (s.withTrapTable (trapInsert s.trapTable a r.trap)).Inv :=
    ⟨h.memory, TrapTable.wf_trapInsert h.traps a r.trap, h.deliveries⟩
  unfold register
  split
  · exact registered
  · exact Inv_emit (Inv_applyHook registered _) _

/-- A listener added takes nothing from the notifications made before. -/
theorem Inv_addListener {s : State} (h : s.Inv) (l : Listener) : (s.addListener l).Inv := by
  refine ⟨h.memory, h.traps, fun d hd => ?_⟩
  obtain ⟨subscribed, wanted⟩ := h.deliveries d hd
  exact ⟨List.mem_append_left _ subscribed, wanted⟩

theorem Inv_requestInterrupt {s : State} (h : s.Inv) : (requestInterrupt s).Inv := by
  unfold requestInterrupt
  split
  · exact h
  · exact Inv_announceJump (Inv_interruptEntry h) _ s

theorem Inv_runLoop {s : State} (h : s.Inv) (fuel n : Nat) : (runLoop fuel s n).state.Inv := by
  induction fuel generalizing s n with
  | zero => exact h
  | succ fuel ih =>
    unfold runLoop
    split
    · exact h
    · split
      next t ht => exact ih (Inv_step h ht) (n + 1)
      all_goals exact h

theorem Inv_run {s : State} (h : s.Inv) (start : Addr) (max : Nat) : (run start max s).state.Inv :=
  Inv_runLoop (Inv_announceJump (Inv_withPc h start) _ s) max 0

theorem Inv_act {x : HostAction} {s t : State} (h : s.Inv) (hact : act x s = .next t) : t.Inv := by
  cases x with
  | poke a v => cases hact; exact Inv_memWrite h a v
  | loadRawImage bytes => exact Inv_loadRawImage h hact
  | register a r => cases hact; exact Inv_register h a r
  | subscribe l => cases hact; exact Inv_addListener h l
  | requestInterrupt => cases hact; exact Inv_requestInterrupt h
  | setPc a => cases hact; exact Inv_announceJump (Inv_withPc h a) _ s
  | step => exact Inv_step h hact
  | run start max =>
    rw [act] at hact
    split at hact <;> cases hact
    all_goals exact Inv_run h start max

/-- Settles O53: by induction on the session, every action keeping the invariant. -/
theorem sessionsKeepInvariant : Obligations.SessionsKeepInvariant := by
  intro xs
  induction xs with
  | nil =>
    intro s t h hsession
    cases hsession
    exact h
  | cons x rest ih =>
    intro s t h hsession
    rw [session] at hsession
    split at hsession
    next u hact => exact ih u t (Inv_act h hact) hsession
    all_goals cases hsession

end Sys2Proof.Machine
end

section
/-! SUPPORT. The status byte taken apart (10_state.md rule R30), memory's one list for one content, the indirect modes,
and the constructed machine. -/

namespace Sys2Proof

/-- Bit 5 is set in packing and lost in unpacking; the other seven bits go both ways: a check of the 256 bytes. -/
theorem Flags.pack_unpack (b : Byte) : (Flags.unpack b).pack = b ||| 0x20 := by
  decide +revert

/-- A check of the 128 settings of the flags. -/
theorem Flags.unpack_pack (f : Flags) : Flags.unpack f.pack = f := by
  obtain ⟨c, z, i, d, b, v, n⟩ := f
  decide +revert

/-- Settles O4: the flags are the bits by definition, and packing and unpacking undo each other but for bit 5. -/
theorem unpackedStatusByte : Obligations.UnpackedStatusByte :=
  ⟨fun b => ⟨Flags.pack_unpack b, rfl, rfl, rfl, rfl, rfl, rfl, rfl⟩, Flags.unpack_pack⟩

namespace Machine

/-- Bytes that read the same at every address read the same at every number, for none is listed past the last. -/
theorem mem_read_eq_of_sameMemory {s t : State} (hs : s.Inv) (ht : t.Inv) (h : SameMemory s t) (k : Nat) :
    s.mem.read k = t.mem.read k := by
  by_cases hk : k < 65536
  · have same := h (BitVec.ofNat 16 k)
    rw [State.memRead_ofNat, State.memRead_ofNat, Nat.mod_eq_of_lt hk] at same
    exact same.symm
  · rw [Memory.read_above hs.memory (Nat.not_lt.mp hk), Memory.read_above ht.memory (Nat.not_lt.mp hk)]

/-- Settles O6: a write keeps the form, and two lists of the form that read the same are one. -/
theorem memoryIsCanonical : Obligations.MemoryIsCanonical :=
  ⟨fun _ a v h => Memory.wf_write h a.isLt v,
    fun _ _ hs ht h => Memory.ext_of_wfFrom hs.memory ht.memory (mem_read_eq_of_sameMemory hs ht h)⟩

section Pointers

variable (s : State) (b : Byte)

/-- A pointer below the last address is a pair of bytes that does not wrap. -/
theorem State.memRead16_toNat_of_lt {p : Addr} (h : p.toNat + 1 < 65536) :
    (s.memRead16 p).toNat = (s.mem.read p.toNat).toNat + 256 * (s.mem.read (p.toNat + 1)).toNat := by
  rw [State.memRead16_eq_word, word_toNat, Nat.mod_eq_of_lt h, Nat.mul_comm, Nat.add_comm]

/-- The pointer of `indx` lies at 510 at most. -/
theorem ea_indx_toNat :
    (ea (.indx b) s).toNat =
      (s.mem.read (b.toNat + s.x.toNat)).toNat + 256 * (s.mem.read (b.toNat + s.x.toNat + 1)).toNat := by
  have hb := b.isLt
  have hx := s.x.isLt
  have sum := zext_add_zext_toNat b s.x
  rw [ea, State.memRead16_toNat_of_lt s (by omega), sum]

theorem ea_indy_toNat :
    (ea (.indy b) s).toNat =
      ((s.mem.read b.toNat).toNat + 256 * (s.mem.read (b.toNat + 1)).toNat + s.y.toNat) % 65536 := by
  have hb := b.isLt
  have pointer := zext_toNat b
  rw [ea, add_zext_toNat, State.memRead16_toNat_of_lt s (by omega), pointer]

end Pointers

/-- Settles O9: both pointers in the integers; the three sources are `operand8` by definition. -/
theorem indirectEffectiveAddressesAndSources : Obligations.IndirectEffectiveAddressesAndSources :=
  fun b _ s => ⟨ea_indx_toNat s b, ea_indy_toNat s b, rfl, rfl, rfl⟩

/-- Settles O1: every field is the one `State.construct` writes, and an empty list reads 0x00 everywhere. -/
theorem constructedMachineState : Obligations.ConstructedMachineState := by
  intro cfg s
  exact ⟨fun _ => rfl, rfl, rfl, rfl, rfl, rfl, rfl, rfl, rfl, fun _ => rfl, rfl, rfl, rfl⟩

/-- Settles O2: empty lists are in canonical form, and nothing has been notified. -/
theorem constructedMachineSatisfiesInvariant : Obligations.ConstructedMachineSatisfiesInvariant :=
  fun _ => ⟨rfl, rfl, nofun⟩

/-- Settles O35: the words are literal, and so are their instructions. -/
theorem sampleWordsDecode : Obligations.SampleWordsDecode :=
  ⟨rfl, rfl, rfl, rfl, rfl, rfl, rfl, rfl, rfl, rfl⟩

end Machine
end Sys2Proof
end

section
/-! SUPPORT. Interrupt entry as one update of the state (60_exceptions.md rule R270), and the frames that JSR, BRK and
an accepted request leave on the stack, popped again by RTS and RTI. -/

namespace Sys2Proof.Machine

section Entry

variable (s : State)

/-- What interrupt entry changes, and that it changes nothing else. -/
theorem interruptEntry_eq :
    interruptEntry s =
      { s with
        mem := (interruptEntry s).mem
        delivered := (interruptEntry s).delivered
        sp := s.sp - 3
        flags := { s.flags with i := true }
        pc := (interruptEntry s).memRead16 (if s.flags.b then s.cfg.vecBrk else s.cfg.vecIrq) } := by
  obtain ⟨ha, hx, hy, hsp, hflags, htable, hcount, hlisteners, htick, hcfg⟩ := interruptEntry_fields s
  have hpc := interruptEntry_pc s
  generalize interruptEntry s = t at *
  rw [← hpc, ← ha, ← hx, ← hy, ← hsp, ← hflags, ← htable, ← hcount, ← hlisteners, ← htick, ← hcfg]

theorem interruptEntry_memRead_highSlot : (interruptEntry s).memRead (stackSlot s 0) = hi8 s.pc := by
  rw [interruptEntry_memRead, if_neg (stackSlot_ne s (by decide)), if_neg (stackSlot_ne s (by decide)), if_pos rfl]

theorem interruptEntry_memRead_lowSlot : (interruptEntry s).memRead (stackSlot s 1) = lo8 s.pc := by
  rw [interruptEntry_memRead, if_neg (stackSlot_ne s (by decide)), if_pos rfl]

theorem interruptEntry_sameMemoryOutside :
    SameMemoryOutside [stackSlot s 0, stackSlot s 1, stackSlot s 2] s (interruptEntry s) := by
  intro a ha
  obtain ⟨notHigh, notLow, notStatus⟩ : a ≠ stackSlot s 0 ∧ a ≠ stackSlot s 1 ∧ a ≠ stackSlot s 2 := by simpa using ha
  rw [interruptEntry_memRead, if_neg notStatus, if_neg notLow, if_neg notHigh]

/-- The state in which BRK enters: past its second byte, `B` set (the spec's decision D11). -/
def State.atBreak : State := (s.withPc (s.pc + 1)).withFlags { s.flags with b := true }

theorem brk_eq_interruptEntry : brk s = interruptEntry s.atBreak := rfl

theorem announceJump_eq (cause : JumpCause) (t : State) :
    announceJump cause s t = { t with delivered := (announceJump cause s t).delivered } := rfl

variable {s}

theorem requestInterrupt_memRead_of_unmasked (h : s.flags.i = false) :
    (requestInterrupt s).memRead = (interruptEntry s).memRead := by
  rw [requestInterrupt_of_unmasked h]
  rfl

end Entry

/-- Settles O31: BRK is interrupt entry with `B` set, so the vector is VEC_BRK. -/
theorem breakEntersThroughBrkVector : Obligations.BreakEntersThroughBrkVector := by
  refine ⟨rfl, fun s => ⟨brk s, exec_eq_operate .brk s, ?_⟩⟩
  rw [brk_eq_interruptEntry]
  exact ⟨interruptEntry_memRead_highSlot s.atBreak, interruptEntry_memRead_lowSlot s.atBreak,
    interruptEntry_memRead_statusSlot s.atBreak, interruptEntry_sameMemoryOutside s.atBreak,
    interruptEntry_eq s.atBreak⟩

/-- Settles O33: a masked request is dropped, and another is interrupt entry, whose announcement changes notifications
alone. -/
theorem interruptRequestEntersOrIsDropped : Obligations.InterruptRequestEntersOrIsDropped := by
  refine fun s => ⟨requestInterrupt_of_masked, fun h => ?_⟩
  intro t
  have reads : t.memRead = (interruptEntry s).memRead := requestInterrupt_memRead_of_unmasked h
  refine ⟨?high, ?low, ?status, ?frame, ?update⟩
  case high => rw [reads, interruptEntry_memRead_highSlot]
  case low => rw [reads, interruptEntry_memRead_lowSlot]
  case status => rw [reads, interruptEntry_memRead_statusSlot]
  case frame =>
    intro a ha
    rw [reads, interruptEntry_sameMemoryOutside s a ha]
  case update =>
    have entered := interruptEntry_eq s
    rw [show t = _ from requestInterrupt_of_unmasked h, announceJump_eq]
    generalize (announceJump _ s (interruptEntry s)).delivered = d
    generalize interruptEntry s = u at entered ⊢
    exact congrArg (fun u : State => { u with delivered := d }) entered

section RoundTrips

/-- The slot a byte is popped from, named by the stack pointer from before its push. -/
theorem pulledSlot_eq_stackSlot {s u : State} {j k : Byte} (hcfg : u.cfg = s.cfg) (hsp : u.sp + k = s.sp - j) :
    pulledSlot u k = stackSlot s j := by
  rw [pulledSlot, stackSlot, hcfg, hsp]

/-- RTS as one update of the state: the address from the two slots above `SP`. -/
theorem exec_rts_eq (s : State) :
    exec .rts s = .next { s with
      sp := s.sp + 2
      pc := word (s.memRead (pulledSlot s 2)) (s.memRead (pulledSlot s 1)) + s.cfg.returnBias } :=
  (exec_eq_operate .rts s).trans (congrArg Host.Outcome.next (returnFromSubroutine_eq s))

theorem jsr_memRead (op : Addr) (s : State) : (jsr op s).memRead = (s.push16 (s.pc - s.cfg.returnBias)).memRead := rfl

/-- Settles O29: RTS pops the two slots JSR pushed, and adds the bias JSR took away. -/
theorem subroutineRoundTrip : Obligations.SubroutineRoundTrip := by
  intro op s t u hjsr hcfg hsp hhigh hlow
  obtain rfl : jsr op s = t := Host.Outcome.next.inj ((exec_eq_operate (.jsr op) s).symm.trans hjsr)
  have pushed : (jsr op s).sp = s.sp - 2 := by rw [jsr_eq]
  rw [pushed] at hsp
  have high : u.memRead (pulledSlot u 2) = hi8 (s.pc - s.cfg.returnBias) := by
    rw [pulledSlot_eq_stackSlot (j := 0) hcfg (by bv_omega), hhigh, jsr_memRead, State.memRead_push16_stackSlot_zero]
  have low : u.memRead (pulledSlot u 1) = lo8 (s.pc - s.cfg.returnBias) := by
    rw [pulledSlot_eq_stackSlot (j := 1) hcfg (by bv_omega), hlow, jsr_memRead, State.memRead_push16_stackSlot_one]
  have popped : u.sp + 2 = s.sp := by bv_omega
  rw [exec_rts_eq, high, low, popped, word_hi8_lo8, hcfg, BitVec.sub_add_cancel]

/-- Settles O34: RTI pops the three slots of the entry, and the flags pushed are loaded as they were. -/
theorem interruptRoundTrip : Obligations.InterruptRoundTrip := by
  intro s u hi hcfg hsp hslots
  have kept (k : Byte) (hk : k ∈ [(0 : Byte), 1, 2]) :
      u.memRead (stackSlot s k) = (interruptEntry s).memRead (stackSlot s k) := by
    rw [hslots k hk, requestInterrupt_of_unmasked hi]
    rfl
  rw [requestInterrupt_sp_of_unmasked hi] at hsp
  have status : u.memRead (pulledSlot u 1) = s.flags.pack := by
    rw [pulledSlot_eq_stackSlot (j := 2) hcfg (by bv_omega), kept 2 (by decide), interruptEntry_memRead_statusSlot]
  have low : u.memRead (pulledSlot u 2) = lo8 s.pc := by
    rw [pulledSlot_eq_stackSlot (j := 1) hcfg (by bv_omega), kept 1 (by decide), interruptEntry_memRead_lowSlot]
  have high : u.memRead (pulledSlot u 3) = hi8 s.pc := by
    rw [pulledSlot_eq_stackSlot (j := 0) hcfg (by bv_omega), kept 0 (by decide), interruptEntry_memRead_highSlot]
  have popped : u.sp + 3 = s.sp := by bv_omega
  rw [exec_rti_eq, status, low, high, popped, Flags.unpack_pack, word_hi8_lo8]

end RoundTrips

/-- Settles O23: PHP is one push of the packed flags; PLP pops a byte, and packing its flags gives it back. -/
theorem pushAndPullStatus : Obligations.PushAndPullStatus := by
  refine ⟨rfl, rfl, fun s => ⟨⟨s.push8 s.flags.pack, exec_eq_operate .php s, ?slot, ?frame, s.push8_eq s.flags.pack⟩,
    ⟨s.pop8.withFlags (Flags.unpack s.popped8), exec_eq_operate .plp s, ?plp, rfl⟩⟩⟩
  case slot => exact s.memRead_push8_stackSlot s.flags.pack
  case frame => exact s.push8_sameMemoryOutside_stackSlot s.flags.pack
  case plp =>
    rw [← s.popped8_eq_memRead_pulledSlot]
    exact Flags.pack_unpack s.popped8

end Sys2Proof.Machine
end

section
/-! SUPPORT. The step's two paths (60_exceptions.md rules R282, R284): what a completed step does to the state a program
cannot read, which step fails, and registration, which changes the registry alone. -/

namespace Sys2Proof.Machine

theorem fetch_of_decode {s : State} {i : Instr} {rest : List Byte} (h : decode (fetchBytes s) = .ok (i, rest)) :
    fetch s = some i := by
  rw [fetch_eq_decode, h]
  rfl

/-- What a step of a decoded instruction leaves: what the instruction left, one more operation, and notifications. -/
theorem step_eq_of_fetch {s : State} {i : Instr} (ht : trapAt s.trapTable s.pc = none) (hf : fetch s = some i) :
    ∃ w, step s = .next w ∧
      w = { operate i.mnemonic i.operand (beginInstr i s) with
            opCount := (operate i.mnemonic i.operand (beginInstr i s)).opCount + 1
            delivered := w.delivered } :=
  ⟨_, step_of_fetch ht hf, finishInstr_eq _ _ _⟩

/-- Settles O40: the step runs the instruction that the bytes at `PC` decode to; `exec` always answers a next state. -/
theorem stepRunsDecodedInstruction : Obligations.StepRunsDecodedInstruction := by
  intro s i rest ht hdecode u
  obtain ⟨w, hstep, hw⟩ := step_eq_of_fetch ht (fetch_of_decode hdecode)
  have hexec : exec i u = .next (operate i.mnemonic i.operand (beginInstr i s)) := exec_eq_operate i u
  refine ⟨fun t hnext => ?next, fun f hfault => ?fault, fun r hrefused => ?refused⟩
  case next =>
    obtain rfl := Host.Outcome.next.inj (hexec.symm.trans hnext)
    exact ⟨w, hstep, hw⟩
  case fault => cases hexec.symm.trans hfault
  case refused => cases hexec.symm.trans hrefused

/-- Settles O30: 0xEA decodes to NOP, whose operation is the state itself. -/
theorem nopOnlyAdvances : Obligations.NopOnlyAdvances := by
  refine ⟨rfl, exec_eq_operate .nop, fun s ht hb => ?_⟩
  have decoded : decode (fetchBytes s) = .ok (.nop, [s.memRead (s.pc + 1), s.memRead (s.pc + 2)]) := by
    rw [fetchBytes, hb]
    rfl
  exact step_eq_of_fetch ht (fetch_of_decode decoded)

/-- Which of its three outcomes a step has, by the registry and the table. -/
theorem step_outcome (s : State) :
    (step s = .fault (.unmappableOpcode (s.memRead s.pc) s.pc) ∧ trapAt s.trapTable s.pc = none ∧
      decodeByte (s.memRead s.pc) = none) ∨
    ((∃ t, step s = .next t) ∧ (trapAt s.trapTable s.pc = none → decodeByte (s.memRead s.pc) ≠ none)) := by
  cases ht : trapAt s.trapTable s.pc with
  | some t => exact .inr ⟨⟨_, step_of_trapAt ht⟩, nofun⟩
  | none =>
    cases hf : fetch s with
    | none => exact .inl ⟨step_of_fetch_eq_none ht hf, rfl, (fetch_eq_none_iff s).mp hf⟩
    | some i =>
      refine .inr ⟨⟨_, step_of_fetch ht hf⟩, fun _ hb => ?_⟩
      rw [(fetch_eq_none_iff s).mpr hb] at hf
      cases hf

/-- Settles O41: a step fails in the first of its outcomes alone. -/
theorem onlyUnmappedOpcodesAreFatal : Obligations.OnlyUnmappedOpcodesAreFatal := by
  intro s
  refine ⟨fun f => ?fault, fun r hrefused => ?refused, fun i => ⟨_, exec_eq_operate i s⟩⟩
  case fault =>
    obtain ⟨hstep, ht, hb⟩ | ⟨⟨t, hstep⟩, mapped⟩ := step_outcome s
    · rw [hstep, Host.Outcome.fault.injEq]
      exact ⟨fun hf => ⟨ht, hb, hf.symm⟩, fun ⟨_, _, hf⟩ => hf.symm⟩
    · rw [hstep]
      exact ⟨nofun, fun ⟨ht, hb, _⟩ => absurd hb (mapped ht)⟩
  case refused =>
    obtain ⟨hstep, -, -⟩ | ⟨⟨t, hstep⟩, -⟩ := step_outcome s <;> cases hstep.symm.trans hrefused

/-- What a trap visit does to the state a program cannot read: one more operation, one more hook. -/
theorem trapVisit_hidden (t : Trap) (s : State) :
    (trapVisit t s).opCount = s.opCount + 1 ∧ (trapVisit t s).trapTable = s.trapTable ∧
    (trapVisit t s).listeners = s.listeners ∧ (trapVisit t s).cfg = s.cfg ∧
    (trapVisit t s).hookTick = s.hookTick + 1 := by
  obtain ⟨table, count, listeners, tick, cfg⟩ := afterHook_hidden t s
  rw [trapVisit_eq, performEndWith_eq]
  exact ⟨congrArg (· + 1) count, table, listeners, cfg, tick⟩

/-- What an instruction's part of a step does to the state a program cannot read: one more operation. -/
theorem finishInstr_operate_hidden (i : Instr) (s : State) (mn : Mnemonic) (o : Operand) :
    let w := finishInstr i (beginInstr i s) (operate mn o (beginInstr i s))
    w.opCount = s.opCount + 1 ∧ w.trapTable = s.trapTable ∧ w.listeners = s.listeners ∧ w.cfg = s.cfg ∧
    w.hookTick = s.hookTick := by
  obtain ⟨table, count, listeners, tick, cfg⟩ := operate_hidden mn o (beginInstr i s)
  intro w
  rw [show w = _ from finishInstr_eq i _ _]
  exact ⟨congrArg (· + 1) count, table, listeners, cfg, tick⟩

/-- Settles O45: on either path of a step. -/
theorem stepCountsAndKeepsHiddenState : Obligations.StepCountsAndKeepsHiddenState := by
  intro s w hstep
  obtain ⟨t, ht, rfl⟩ | ⟨ht, i, -, rfl⟩ := step_cases hstep
  · rw [ht]
    exact trapVisit_hidden t s
  · rw [ht]
    exact finishInstr_operate_hidden i s i.mnemonic i.operand

/-! ### Registration -/

/-- Registration enters the routine in the registry; an install hook leaves the registry and `opCount` alone. -/
theorem register_hidden (a : Addr) (r : HostRoutine) (s : State) :
    (register a r s).trapTable = trapInsert s.trapTable a r.trap ∧ (register a r s).opCount = s.opCount := by
  unfold register
  split
  · exact ⟨rfl, rfl⟩
  · obtain ⟨table, count, -⟩ := applyHook_hidden _ (s.withTrapTable (trapInsert s.trapTable a r.trap))
    exact ⟨table, count⟩

theorem register_of_onLoad_eq_none {r : HostRoutine} (h : r.onLoad = none) (a : Addr) (s : State) :
    register a r s = s.withTrapTable (trapInsert s.trapTable a r.trap) := by
  simp only [register, h]

/-- Settles O44: the registry is looked up as after one insertion. -/
theorem registrationAddsOneTrap : Obligations.RegistrationAddsOneTrap := by
  intro s a b r entry
  obtain ⟨table, count⟩ := register_hidden a r s
  refine ⟨?lookup, count, fun h => ?alone⟩
  case lookup =>
    have isTrap : r.trap = entry := by
      obtain ⟨_, _, _ | _⟩ := r <;> rfl
    rw [table, trapAt_trapInsert, isTrap]
  case alone =>
    rw [register_of_onLoad_eq_none h]
    rfl

end Sys2Proof.Machine
end

section
/-! SUPPORT. Which components of the state an instruction reads and writes (10_state.md rules R20 to R25), said once for
all of them: registers, program counter, flags, and what a program cannot read. Three laws speak of two runs that differ
in one component: what is not read makes no difference elsewhere; what is written is then written with the same value;
and what is not written stays. Each is proved by mnemonics that share an operation: there a component is either listed
for the mnemonic, which evaluating the list shows, or the operation leaves it by definition. -/

namespace Sys2Proof.Machine

/-- A component of the state; `hidden` is the registry, the operation counter and the hooks' counter together. -/
inductive Component where
  | a | x | y | sp | pc | c | z | i | d | b | v | n | hidden

namespace Component

/-- What a component holds. -/
abbrev Val : Component → Type
  | .a | .x | .y | .sp => Byte
  | .pc => Addr
  | .c | .z | .i | .d | .b | .v | .n => Bool
  | .hidden => Nat × TrapTable × Nat

/-- The value of a component. -/
def get : (p : Component) → State → p.Val
  | .a, s => s.a
  | .x, s => s.x
  | .y, s => s.y
  | .sp, s => s.sp
  | .pc, s => s.pc
  | .c, s => s.flags.c
  | .z, s => s.flags.z
  | .i, s => s.flags.i
  | .d, s => s.flags.d
  | .b, s => s.flags.b
  | .v, s => s.flags.v
  | .n, s => s.flags.n
  | .hidden, s => (s.opCount, s.trapTable, s.hookTick)

/-- The state with another value of a component. -/
def put : (p : Component) → p.Val → State → State
  | .a, w, s => { s with a := w }
  | .x, w, s => { s with x := w }
  | .y, w, s => { s with y := w }
  | .sp, w, s => { s with sp := w }
  | .pc, w, s => { s with pc := w }
  | .c, w, s => { s with flags := { s.flags with c := w } }
  | .z, w, s => { s with flags := { s.flags with z := w } }
  | .i, w, s => { s with flags := { s.flags with i := w } }
  | .d, w, s => { s with flags := { s.flags with d := w } }
  | .b, w, s => { s with flags := { s.flags with b := w } }
  | .v, w, s => { s with flags := { s.flags with v := w } }
  | .n, w, s => { s with flags := { s.flags with n := w } }
  | .hidden, w, s => { s with opCount := w.1, trapTable := w.2.1, hookTick := w.2.2 }

/-- The mnemonics that read a component in any mode (rules R20 to R25; a push of the status byte reads every flag). -/
def readers : Component → List Mnemonic
  | .a => Claims.readersOfA
  | .x => [.stx, .txa, .txs, .cpx, .inx, .dex]
  | .y => [.sty, .tya, .cpy, .iny, .dey]
  | .sp => [.tsx, .pha, .php, .pla, .plp, .jsr, .rts, .brk, .rti]
  | .pc => [.jsr, .brk, .bcc, .bcs, .beq, .bne, .bmi, .bpl, .bvc, .bvs]
  | .c => [.adc, .sbc, .rol, .ror, .bcc, .bcs, .php, .brk]
  | .z => [.beq, .bne, .php, .brk]
  | .i | .d | .b => [.php, .brk]
  | .v => [.bvc, .bvs, .php, .brk]
  | .n => [.bmi, .bpl, .php, .brk]
  | .hidden => []

/-- The modes that read a component, whatever the mnemonic: the accumulator's own mode, and the indexed ones. -/
def readingModes : Component → List Mode
  | .a => [.acc]
  | .x => [.zpx, .absx, .indx]
  | .y => [.zpy, .absy, .indy]
  | _ => []

/-- The mnemonics that write a component; a shift in accumulator mode writes `A` besides. -/
def writers : Component → List Mnemonic
  | .a => Claims.writersOfA
  | .x => [.ldx, .tax, .tsx, .inx, .dex]
  | .y => [.ldy, .tay, .iny, .dey]
  | .sp => [.txs, .pha, .php, .pla, .plp, .jsr, .rts, .brk, .rti]
  | .pc => Claims.transfers
  | .c => [.adc, .sbc, .cmp, .cpx, .cpy, .asl, .lsr, .rol, .ror, .clc, .sec, .plp, .rti]
  | .z | .n => Claims.writersOfZN
  | .i => [.sei, .cli, .brk, .plp, .rti]
  | .d => [.sed, .cld, .plp, .rti]
  | .b => [.brk, .plp, .rti]
  | .v => [.adc, .sbc, .bit, .clv, .plp, .rti]
  | .hidden => []

variable (p : Component) (s : State) (v w : p.Val)

@[simp] theorem put_get : p.put (p.get s) s = s := by cases p <;> rfl

@[simp] theorem get_put : p.get (p.put v s) = v := by cases p <;> rfl

@[simp] theorem put_put : p.put w (p.put v s) = p.put w s := by cases p <;> rfl

end Component

section Operands

variable {p : Component} (s : State) (v : p.Val)

/-- Effective addresses read memory and the index of their mode alone. -/
theorem ea_put {m : MemOperand} (hm : (Operand.mem m).mode ∉ p.readingModes) : ea m (p.put v s) = ea m s := by
  cases m <;> cases p <;> first | rfl | exact absurd (List.mem_of_elem_eq_true rfl) hm

theorem memRead_put (a : Addr) : (p.put v s).memRead a = s.memRead a := by
  cases p <;> rfl

theorem operand8_put {o : Operand} {src : Source} (hsrc : o.source? = some src) (hm : o.mode ∉ p.readingModes) :
    operand8 src (p.put v s) = operand8 src s := by
  cases o with
  | imm op => cases hsrc; rfl
  | acc =>
    cases hsrc
    cases p <;> first | rfl | exact absurd (List.mem_of_elem_eq_true rfl) hm
  | mem m =>
    cases hsrc
    rw [operand8, operand8, ea_put s v hm, memRead_put]
  | imp | ind | rel => cases hsrc

end Operands

/-! ### What is not read makes no difference elsewhere -/

section Unread

variable {p : Component} (s : State) (v w : p.Val)

/-- A branch on one condition goes to one place, or stays. -/
theorem put_branch_put (cond : Bool) (op : Byte) :
    p.put w (branch cond op (p.put v s)) = p.put w (branch cond op s) := by
  cases cond with
  | false => exact p.put_put s v w
  | true => cases p <;> rfl

end Unread

/-- An instruction that does not read a component does the same whatever the component holds, but for the component
itself. -/
theorem put_operate_put {p : Component} {mn : Mnemonic} {o : Operand} (hr : mn ∉ p.readers)
    (hm : o.mode ∉ p.readingModes) (s : State) (v w : p.Val) :
    p.put w (operate mn o (p.put v s)) = p.put w (operate mn o s) := by
  cases mn <;> simp only [operate]
  case lda | ldx | ldy | adc | sbc | and | ora | eor | bit | cmp | cpx | cpy =>
    cases hsrc : o.source? with
    | none => exact p.put_put s v w
    | some src =>
      simp only [Option.map_some, Option.getD_some, lda, ldx, ldy, adc, sbc, andA, oraA, eorA, bitTest, cmp, cpx, cpy,
        operand8_put s v hsrc hm]
      cases p <;> first | exact absurd (List.mem_of_elem_eq_true rfl) hr | rfl
  case sta | stx | sty | inc | dec =>
    cases o with
    | mem m =>
      simp only [Operand.mem?, Option.map_some, Option.getD_some, sta, stx, sty, incMem, decMem, ea_put s v hm]
      cases p <;> first | exact absurd (List.mem_of_elem_eq_true rfl) hr | rfl
    | imp | acc | imm | ind | rel => exact p.put_put s v w
  case asl | lsr | rol | ror =>
    cases o with
    | mem m =>
      simp only [Operand.place?, Option.map_some, Option.getD_some, modifyInPlace, ea_put s v hm]
      cases p <;> first | exact absurd (List.mem_of_elem_eq_true rfl) hr | rfl
    | acc =>
      simp only [Operand.place?, Option.map_some, Option.getD_some, modifyInPlace]
      cases p <;>
        first
        | exact absurd (List.mem_of_elem_eq_true rfl) hr
        | exact absurd (List.mem_of_elem_eq_true rfl) hm
        | rfl
    | imp | imm | ind | rel => exact p.put_put s v w
  case bcc | bcs | beq | bne | bmi | bpl | bvc | bvs =>
    split
    · cases p <;> first | exact absurd (List.mem_of_elem_eq_true rfl) hr | exact put_branch_put s v w _ _
    · exact p.put_put s v w
  case jmp =>
    split
    · cases p <;> rfl
    · cases p <;> rfl
    · exact p.put_put s v w
  case jsr =>
    split
    · cases p <;> first | exact absurd (List.mem_of_elem_eq_true rfl) hr | rfl
    · exact p.put_put s v w
  all_goals
    cases p <;> first | exact absurd (List.mem_of_elem_eq_true rfl) hr | rfl

/-! ### What is written does not depend on what was there -/

/-- Where the table has a mnemonic with a mode, the operand has the form that the mnemonic's operation asks for. -/
theorem get_operate_put_of_written {p : Component} {mn : Mnemonic} {o : Operand} (hs : supports mn o.mode = true)
    (hw : mn ∈ p.writers) (hr : mn ∉ p.readers) (hm : o.mode ∉ p.readingModes) (s : State) (v : p.Val) :
    p.get (operate mn o (p.put v s)) = p.get (operate mn o s) := by
  have hw : decide (mn ∈ p.writers) = true := decide_eq_true hw
  have hr : decide (mn ∈ p.readers) = false := decide_eq_false hr
  cases mn <;> simp only [operate]
  case lda | ldx | ldy | adc | sbc | and | ora | eor | bit | cmp | cpx | cpy =>
    cases hsrc : o.source? with
    | none => cases o <;> first | exact absurd hs Bool.false_ne_true | cases hsrc
    | some src =>
      simp only [Option.map_some, Option.getD_some, lda, ldx, ldy, adc, sbc, andA, oraA, eorA, bitTest, cmp, cpx, cpy,
        operand8_put s v hsrc hm]
      cases p <;>
        first | exact absurd hw Bool.false_ne_true | exact absurd hr.symm Bool.false_ne_true | rfl
  case sta | stx | sty =>
    cases p <;> exact absurd hw Bool.false_ne_true
  case inc | dec =>
    cases o with
    | mem m =>
      simp only [Operand.mem?, Option.map_some, Option.getD_some, incMem, decMem, ea_put s v hm, memRead_put]
      cases p <;> first | exact absurd hw Bool.false_ne_true | rfl
    | imp | acc | imm | ind | rel => exact absurd hs Bool.false_ne_true
  case asl | lsr | rol | ror =>
    cases o with
    | mem m =>
      simp only [Operand.place?, Option.map_some, Option.getD_some, modifyInPlace, ea_put s v hm, memRead_put]
      cases p <;> first | exact absurd hw Bool.false_ne_true | exact absurd hr.symm Bool.false_ne_true | rfl
    | acc =>
      simp only [Operand.place?, Option.map_some, Option.getD_some, modifyInPlace]
      cases p <;> first | exact absurd hw Bool.false_ne_true | exact absurd hr.symm Bool.false_ne_true | rfl
    | imp | imm | ind | rel => exact absurd hs Bool.false_ne_true
  case jmp =>
    cases o with
    | mem m =>
      cases m with
      | abs op => cases p <;> first | exact absurd hw Bool.false_ne_true | rfl
      | zp | zpx | zpy | absx | absy | indx | indy => exact absurd hs Bool.false_ne_true
    | ind op => cases p <;> first | exact absurd hw Bool.false_ne_true | rfl
    | imp | acc | imm | rel => exact absurd hs Bool.false_ne_true
  all_goals
    cases p <;>
      first | exact absurd hw Bool.false_ne_true | exact absurd hr.symm Bool.false_ne_true | rfl

/-! ### What is not written stays -/

theorem get_operate_of_not_written {p : Component} {mn : Mnemonic} {o : Operand} (hw : mn ∉ p.writers)
    (hacc : p = .a → o.mode ≠ .acc) (s : State) : p.get (operate mn o s) = p.get s := by
  cases mn <;> simp only [operate]
  case lda | ldx | ldy | adc | sbc | and | ora | eor | bit | cmp | cpx | cpy =>
    cases o.source? with
    | none => rfl
    | some src => cases p <;> first | exact absurd (List.mem_of_elem_eq_true rfl) hw | rfl
  case sta | stx | sty | inc | dec =>
    cases o.mem? with
    | none => rfl
    | some m => cases p <;> first | exact absurd (List.mem_of_elem_eq_true rfl) hw | rfl
  case asl | lsr | rol | ror =>
    cases o with
    | mem m => cases p <;> first | exact absurd (List.mem_of_elem_eq_true rfl) hw | rfl
    | acc => cases p <;> first | exact absurd (List.mem_of_elem_eq_true rfl) hw | exact absurd rfl (hacc rfl) | rfl
    | imp | imm | ind | rel => rfl
  case bcc | bcs | beq | bne | bmi | bpl | bvc | bvs =>
    split
    · rw [branch_eq]
      cases p <;> first | exact absurd (List.mem_of_elem_eq_true rfl) hw | rfl
    · rfl
  case jmp =>
    split
    · cases p <;> first | exact absurd (List.mem_of_elem_eq_true rfl) hw | rfl
    · cases p <;> first | exact absurd (List.mem_of_elem_eq_true rfl) hw | rfl
    · rfl
  case jsr =>
    split
    · rw [jsr_eq]
      cases p <;> first | exact absurd (List.mem_of_elem_eq_true rfl) hw | rfl
    · rfl
  case brk =>
    rw [brk_eq_interruptEntry, interruptEntry_eq]
    generalize interruptEntry s.atBreak = t
    cases p <;> first | exact absurd (List.mem_of_elem_eq_true rfl) hw | rfl
  case rti =>
    rw [returnFromInterrupt_eq]
    cases p <;> first | exact absurd (List.mem_of_elem_eq_true rfl) hw | rfl
  case rts =>
    rw [returnFromSubroutine_eq]
    cases p <;> first | exact absurd (List.mem_of_elem_eq_true rfl) hw | rfl
  all_goals
    cases p <;> first | exact absurd (List.mem_of_elem_eq_true rfl) hw | rfl

end Sys2Proof.Machine
end

section
/-! SUPPORT. What instructions read and write (10_state.md sections 1 to 3 and 7), read off the components' laws. -/

namespace Sys2Proof.Machine

/-- Only the shifts have the accumulator's mode. -/
theorem mnemonic_mem_shifts_of_mode_acc {i : Instr} (h : i.mode = .acc) : i.mnemonic ∈ Claims.shifts := by
  have hs := i.supports_mode
  rw [h] at hs
  generalize i.mnemonic = mn at hs ⊢
  revert hs
  cases mn <;> decide

section Components

variable {p : Component} {i : Instr} (s : State) (v : p.Val)

/-- What an instruction leaves, as `exec_eq_operate` gives it. -/
def afterExec (i : Instr) (s : State) : State := operate i.mnemonic i.operand s

theorem exec_eq_afterExec (i : Instr) (s : State) : exec i s = .next (afterExec i s) := exec_eq_operate i s

theorem put_afterExec_put (hr : i.mnemonic ∉ p.readers) (hm : i.mode ∉ p.readingModes) (w : p.Val) :
    p.put w (afterExec i (p.put v s)) = p.put w (afterExec i s) :=
  put_operate_put hr (i.operand_mode ▸ hm) s v w

theorem get_afterExec_put_of_written (hw : i.mnemonic ∈ p.writers) (hr : i.mnemonic ∉ p.readers)
    (hm : i.mode ∉ p.readingModes) : p.get (afterExec i (p.put v s)) = p.get (afterExec i s) :=
  get_operate_put_of_written (i.operand_mode ▸ i.supports_mode) hw hr (i.operand_mode ▸ hm) s v

theorem get_afterExec (hw : i.mnemonic ∉ p.writers) (hacc : p = .a → i.mode ≠ .acc) :
    p.get (afterExec i s) = p.get s :=
  get_operate_of_not_written hw (i.operand_mode ▸ hacc) s

/-- Two runs that differ in a component the instruction does not read: the second leaves what the first leaves, that
component apart, which it leaves as the first does where the instruction writes it. -/
theorem exec_put (hr : i.mnemonic ∉ p.readers) (hm : i.mode ∉ p.readingModes) :
    ∃ u, exec i (p.put v s) = .next u ∧ p.put (p.get (afterExec i s)) u = afterExec i s ∧
      (i.mnemonic ∈ p.writers → p.get u = p.get (afterExec i s)) := by
  refine ⟨afterExec i (p.put v s), exec_eq_afterExec i _, ?apart, fun hw => get_afterExec_put_of_written s v hw hr hm⟩
  case apart => rw [put_afterExec_put s v hr hm, p.put_get]

end Components

/-- Settles O46: each clause is a law of one register; the accumulator's mode is the shifts' alone. -/
theorem registerReadersAndWriters : Obligations.RegisterReadersAndWriters := by
  intro i s v
  have noAcc : ¬(i.mnemonic ∈ Claims.shifts ∧ i.mode = .acc) → i.mode ≠ .acc :=
    fun h hacc => h ⟨mnemonic_mem_shifts_of_mode_acc hacc, hacc⟩
  refine ⟨afterExec i s, exec_eq_afterExec i s, fun hw => ?keepsA, fun hw => ?keepsX, fun hw => ?keepsY,
    fun hr => ?readsA, fun hr => ?readsX, fun hr => ?readsY⟩
  case keepsA =>
    obtain ⟨hw, hshift⟩ := not_or.mp hw
    exact get_afterExec (p := .a) s hw fun _ => noAcc hshift
  case keepsX => exact get_afterExec (p := .x) s hw nofun
  case keepsY => exact get_afterExec (p := .y) s hw nofun
  case readsA =>
    obtain ⟨hr, hshift⟩ := not_or.mp hr
    obtain ⟨u, hexec, apart, written⟩ :=
      exec_put (p := .a) s v hr (List.mem_singleton.not.mpr (noAcc hshift))
    exact ⟨u, hexec, apart, fun hw => written (hw.resolve_right hshift)⟩
  case readsX =>
    obtain ⟨hr, hm⟩ := not_or.mp hr
    exact exec_put (p := .x) s v hr hm
  case readsY =>
    obtain ⟨hr, hm⟩ := not_or.mp hr
    exact exec_put (p := .y) s v hr hm

/-- Settles O47: each clause is the law of what is not written, of one component. -/
theorem flagAndStackPointerWriters : Obligations.FlagAndStackPointerWriters := by
  intro i s t h
  obtain rfl : afterExec i s = t := Host.Outcome.next.inj ((exec_eq_afterExec i s).symm.trans h)
  exact ⟨fun hw => get_afterExec (p := .sp) s hw nofun, fun hw => get_afterExec (p := .c) s hw nofun,
    fun hw => ⟨get_afterExec (p := .z) s hw nofun, get_afterExec (p := .n) s hw nofun⟩,
    fun hw => get_afterExec (p := .i) s hw nofun, fun hw => get_afterExec (p := .d) s hw nofun,
    fun hw => get_afterExec (p := .b) s hw nofun, fun hw => get_afterExec (p := .v) s hw nofun⟩

/-- The claim about a flag, from what the laws say of its component. -/
theorem flagClaim_of_laws {get : Flags → Bool} {set : Flags → Bool → Flags} {readers writers : List Mnemonic}
    (kept : ∀ (i : Instr) (s : State), i.mnemonic ∉ writers → get (afterExec i s).flags = get s.flags)
    (get_set : ∀ f v, get (set f v) = v)
    (independent : ∀ (i : Instr) (s : State) (v : Bool), i.mnemonic ∉ readers →
      ∃ u, exec i { s with flags := set s.flags v } = .next u ∧
        { u with flags := set u.flags (get (afterExec i s).flags) } = afterExec i s ∧
        (i.mnemonic ∈ writers → get u.flags = get (afterExec i s).flags)) :
    Claims.FlagClaim get set readers writers := by
  refine fun i s v => ⟨afterExec i s, exec_eq_afterExec i s, kept i s, fun hr => ?_⟩
  obtain ⟨u, hexec, apart, written⟩ := independent i s v hr
  refine ⟨u, hexec, apart, ?_⟩
  split
  next hw => exact written hw
  next hw =>
    obtain rfl := Host.Outcome.next.inj ((exec_eq_afterExec i _).symm.trans hexec)
    rw [kept i _ hw, get_set]

/-- Settles O48: the laws of the six components. -/
theorem flagReaders : Obligations.FlagReaders :=
  ⟨flagClaim_of_laws (fun _ s hw => get_afterExec (p := .c) s hw nofun) (fun _ _ => rfl)
      fun _ s v hr => exec_put (p := .c) s v hr List.not_mem_nil,
    flagClaim_of_laws (fun _ s hw => get_afterExec (p := .z) s hw nofun) (fun _ _ => rfl)
      fun _ s v hr => exec_put (p := .z) s v hr List.not_mem_nil,
    flagClaim_of_laws (fun _ s hw => get_afterExec (p := .i) s hw nofun) (fun _ _ => rfl)
      fun _ s v hr => exec_put (p := .i) s v hr List.not_mem_nil,
    flagClaim_of_laws (fun _ s hw => get_afterExec (p := .b) s hw nofun) (fun _ _ => rfl)
      fun _ s v hr => exec_put (p := .b) s v hr List.not_mem_nil,
    flagClaim_of_laws (fun _ s hw => get_afterExec (p := .v) s hw nofun) (fun _ _ => rfl)
      fun _ s v hr => exec_put (p := .v) s v hr List.not_mem_nil,
    flagClaim_of_laws (fun _ s hw => get_afterExec (p := .n) s hw nofun) (fun _ _ => rfl)
      fun _ s v hr => exec_put (p := .n) s v hr List.not_mem_nil⟩

/-- A component that is neither read nor written is as given. -/
theorem exec_put_of_untouched {p : Component} {i : Instr} (hr : i.mnemonic ∉ p.readers)
    (hm : i.mode ∉ p.readingModes) (hw : i.mnemonic ∉ p.writers) (hacc : p = .a → i.mode ≠ .acc) (s : State)
    (v : p.Val) : exec i (p.put v s) = .next (p.put v (afterExec i s)) := by
  have kept : p.get (afterExec i (p.put v s)) = v := by rw [get_afterExec _ hw hacc, p.get_put]
  have holds := p.put_get (afterExec i (p.put v s))
  rw [kept] at holds
  rw [exec_eq_afterExec, ← put_afterExec_put s v hr hm, holds]

/-- Settles O50: no instruction reads or writes the hidden component. -/
theorem hiddenStateIsUnreadable : Obligations.HiddenStateIsUnreadable := by
  intro i s t n k table h
  obtain rfl : afterExec i s = t := Host.Outcome.next.inj ((exec_eq_afterExec i s).symm.trans h)
  exact exec_put_of_untouched (p := .hidden) List.not_mem_nil List.not_mem_nil List.not_mem_nil nofun s (n, table, k)

theorem finishInstr_pc (i : Instr) (s t : State) : (finishInstr i s t).pc = t.pc := by
  rw [finishInstr_eq]

/-- Settles O51: the step moves `PC` past the instruction, and an instruction that is no transfer leaves it there. -/
theorem nonTransfersAdvancePc : Obligations.NonTransfersAdvancePc := by
  intro s t i ht hf hw hstep
  obtain rfl := Host.Outcome.next.inj ((step_of_fetch ht hf).symm.trans hstep)
  have stays : (afterExec i (beginInstr i s)).pc = (beginInstr i s).pc := get_afterExec (p := .pc) _ hw nofun
  rw [finishInstr_pc, ← afterExec, stays, beginInstr_eq, BitVec.toNat_add, BitVec.toNat_ofNat, Nat.add_mod_mod]

end Sys2Proof.Machine
end

section
/-! SUPPORT. The stores of an instruction (20_memory.md sections 3 and 4, 60_exceptions.md section 5): which addresses
they go to, and that each notifies one memory-changed event, in order. -/

namespace Sys2Proof.Machine

/-- `t` is `s` after stores to `addrs`, in order, and after nothing else that memory or a listener sees. -/
structure Stores (addrs : List Addr) (s t : State) : Prop where
  frame : SameMemoryOutside addrs s t
  notified : t.delivered = s.delivered ++ notifications s.listeners (Claims.changes addrs s t)
  silent : addrs = [] → t.mem = s.mem

/-- Without an event nothing is notified. -/
@[simp] theorem notifications_no_events (ls : List Listener) : notifications ls [] = [] := by
  cases ls <;> rfl

theorem notifications_cons (ls : List Listener) (e : Event) (es : List Event) :
    notifications ls (e :: es) = ((ls.filter fun l => l.wants e).map fun l => (⟨l, e⟩ : Delivery)) ++
      notifications ls es := by
  cases ls with
  | nil => rfl
  | cons l ls => exact List.flatMap_cons

section StoreLaws

variable {s t u : State} {addrs : List Addr}

theorem Stores.of_same (hmem : t.mem = s.mem) (hdelivered : t.delivered = s.delivered) : Stores [] s t where
  frame a _ := by rw [State.memRead, hmem, State.memRead]
  notified := by rw [hdelivered, Claims.changes, List.map_nil, notifications_no_events, List.append_nil]
  silent _ := hmem

/-- Registers, flags and counters are written unseen. -/
theorem Stores.congr (h : Stores addrs s t) (hmem : u.mem = t.mem) (hdelivered : u.delivered = t.delivered) :
    Stores addrs s u := by
  have reads : u.memRead = t.memRead := by
    funext a
    rw [State.memRead, hmem, State.memRead]
  refine ⟨fun a ha => ?frame, ?notified, fun hnil => hmem.trans (h.silent hnil)⟩
  case frame => rw [reads, h.frame a ha]
  case notified => rw [hdelivered, h.notified, Claims.changes, Claims.changes, reads]

variable (s)

theorem stores_memWrite (a : Addr) (v : Byte) : Stores [a] s (s.memWrite a v) where
  frame b hb := s.memRead_memWrite_other v (List.mem_singleton.not.mp hb)
  notified := by
    rw [State.memWrite_delivered, Claims.changes, List.map_singleton, State.memRead_memWrite_same]
  silent h := nomatch h

theorem stores_push8 (v : Byte) : Stores [stackSlot s 0] s (s.push8 v) := by
  rw [stackSlot_zero, ← State.stackTop_def]
  exact (stores_memWrite s s.stackTop v).congr rfl rfl

theorem stores_push16 (w : Addr) : Stores [stackSlot s 0, stackSlot s 1] s (s.push16 w) where
  frame := s.push16_sameMemoryOutside w
  notified := by
    rw [s.push16_delivered, Claims.changes, List.map_cons, List.map_singleton, s.memRead_push16_stackSlot_zero,
      s.memRead_push16_stackSlot_one]
  silent h := nomatch h

theorem stores_interruptEntry : Stores [stackSlot s 0, stackSlot s 1, stackSlot s 2] s (interruptEntry s) where
  frame := interruptEntry_sameMemoryOutside s
  notified := by
    rw [interruptEntry_delivered, Claims.changes, List.map_cons, List.map_cons, List.map_singleton,
      interruptEntry_memRead_highSlot, interruptEntry_memRead_lowSlot, interruptEntry_memRead_statusSlot]
  silent h := nomatch h

theorem stores_brk : Stores [stackSlot s 0, stackSlot s 1, stackSlot s 2] s (brk s) := by
  obtain ⟨frame, notified, -⟩ := stores_interruptEntry s.atBreak
  exact ⟨frame, notified, nofun⟩

end StoreLaws

/-- Every instruction stores to the addresses that `storedAddresses` names, and nowhere else. -/
theorem stores_afterExec (i : Instr) (s : State) : Stores (storedAddresses i s) s (afterExec i s) := by
  have hs : supports i.mnemonic i.operand.mode = true := i.operand_mode ▸ i.supports_mode
  rw [storedAddresses, afterExec]
  generalize i.mnemonic = mn at hs ⊢
  generalize i.operand = o at hs ⊢
  cases mn <;> simp only [operate]
  case lda | ldx | ldy | adc | sbc | and | ora | eor | bit | cmp | cpx | cpy =>
    cases o.source? <;> exact .of_same rfl rfl
  case sta | stx | sty | inc | dec =>
    cases o.mem? with
    | none => exact .of_same rfl rfl
    | some m => exact (stores_memWrite s (ea m s) _).congr rfl rfl
  case asl | lsr | rol | ror =>
    cases o with
    | mem m => exact (stores_memWrite s (ea m s) _).congr rfl rfl
    | imp | acc | imm | ind | rel => exact .of_same rfl rfl
  case bcc | bcs | beq | bne | bmi | bpl | bvc | bvs =>
    split
    · rw [branch_eq]
      exact .of_same rfl rfl
    · exact .of_same rfl rfl
  case jmp => split <;> exact .of_same rfl rfl
  case jsr =>
    split
    next op => exact (stores_push16 s (s.pc - s.cfg.returnBias)).congr rfl rfl
    next other =>
      rcases o with _ | _ | _ | (_ | _ | _ | _ | _ | _ | _ | _) | _ | _
      case mem.abs op => exact absurd rfl (other op)
      all_goals exact absurd hs Bool.false_ne_true
  case pha | php => exact stores_push8 s _
  case brk => exact stores_brk s
  all_goals exact .of_same rfl rfl

/-- Settles O49: the frame of the stores, and what no instruction touches. -/
theorem instructionsStoreOnlyWhereTheySay : Obligations.InstructionsStoreOnlyWhereTheySay := by
  intro i s t h
  obtain rfl : afterExec i s = t := Host.Outcome.next.inj ((exec_eq_afterExec i s).symm.trans h)
  obtain ⟨frame, notified, silent⟩ := stores_afterExec i s
  refine ⟨frame, operate_hidden _ _ s, fun hnil => ⟨silent hnil, ?_⟩⟩
  rw [notified, hnil, Claims.changes, List.map_nil, notifications_no_events, List.append_nil]

/-! ### The events of a step -/

theorem isTransfer_iff (i : Instr) : isTransfer i = true ↔ i.mnemonic ∈ Claims.transfers := by
  rw [isTransfer]
  generalize i.mnemonic = mn
  cases mn <;> decide

/-- The announcement of a transfer's jump, where it makes one. -/
def jumpEvents (i : Instr) (s t : State) : List Event :=
  if isTransfer i && Config.emitsJumpedTo (.instruction i) s.view t.view then [.jumpedTo t.pc] else []

theorem finishInstr_delivered (i : Instr) (s t : State) :
    (finishInstr i s t).delivered =
      t.delivered ++ notifications t.listeners (jumpEvents i s t ++ [.registerStateChanged t.snapshot]) := by
  rw [notifications_append, ← List.append_assoc, finishInstr, jumpEvents]
  cases isTransfer i with
  | true => rfl
  | false =>
    rw [Bool.false_and, if_neg Bool.false_ne_true, if_neg Bool.false_ne_true, notifications_no_events, List.append_nil]
    rfl

theorem jumpEvents_cases (i : Instr) (s t : State) :
    jumpEvents i s t = [] ∨ (i.mnemonic ∈ Claims.transfers ∧ jumpEvents i s t = [.jumpedTo t.pc]) := by
  unfold jumpEvents
  split
  next h => exact .inr ⟨(isTransfer_iff i).mp (Bool.and_eq_true_iff.mp h).1, rfl⟩
  next => exact .inl rfl

theorem finishInstr_snapshot (i : Instr) (s t : State) : (finishInstr i s t).snapshot = t.snapshot := by
  rw [finishInstr_eq]
  rfl

theorem changes_finishInstr (addrs : List Addr) (i : Instr) (s t : State) :
    Claims.changes addrs s (finishInstr i s t) = Claims.changes addrs s t := by
  rw [finishInstr_eq]
  rfl

/-- The events of a step that runs an instruction: one before it, those of its stores, and those after it. -/
theorem step_delivered (i : Instr) (s : State) :
    let b := beginInstr i s
    let t := afterExec i b
    (finishInstr i b t).delivered = s.delivered ++ notifications s.listeners
      (.operationPerformed s.pc i :: (Claims.changes (storedAddresses i b) b t ++
        (jumpEvents i b t ++ [.registerStateChanged t.snapshot]))) := by
  intro b t
  obtain ⟨-, -, listeners, -, -⟩ : SameHidden b t := operate_hidden i.mnemonic i.operand b
  have began : b.delivered = s.delivered ++ notifications s.listeners [.operationPerformed s.pc i] := rfl
  rw [finishInstr_delivered, listeners, (stores_afterExec i b).notified, began, show b.listeners = s.listeners from rfl,
    List.append_assoc, List.append_assoc, ← notifications_append, ← notifications_append, List.singleton_append]

/-- Settles O56: a step's events are those of its three parts, the last of which changes neither memory nor a
register. -/
theorem eventsOfAnInstructionStep : Obligations.EventsOfAnInstructionStep := by
  refine ⟨notifications_cons, State.memWrite_delivered,
    fun i s => ⟨afterExec i s, exec_eq_afterExec i s, (stores_afterExec i s).notified⟩,
    fun s i ht hf => ⟨_, jumpEvents i (beginInstr i s) (afterExec i (beginInstr i s)), step_of_fetch ht hf, ?events,
      ?jump⟩⟩
  all_goals rw [← afterExec]
  case events => rw [changes_finishInstr, finishInstr_snapshot, step_delivered]
  case jump =>
    rw [finishInstr_pc]
    exact jumpEvents_cases i _ _

end Sys2Proof.Machine
end

section
/-! SUPPORT. The host's memory operations (20_memory.md section 7): an image's bytes read back, and a range read as the
numbers of its addresses. -/

namespace Sys2Proof.Machine

section Image

variable {m : Memory} {k : Nat} {bytes : List Byte}

theorem storeBytes_read_outside {j : Nat} (h : j < k ∨ k + bytes.length ≤ j) :
    (storeBytes m k bytes).read j = m.read j := by
  induction bytes generalizing m k with
  | nil => rfl
  | cons b rest ih =>
    rw [List.length_cons] at h
    rw [storeBytes, ih (by omega), Memory.read_write_other m b (by omega)]

theorem storeBytes_read_inside {n : Nat} (h : n < bytes.length) : (storeBytes m k bytes).read (k + n) = bytes[n] := by
  induction bytes generalizing m k n with
  | nil => cases h
  | cons b rest ih =>
    rw [storeBytes]
    cases n with
    | zero =>
      rw [storeBytes_read_outside (by omega)]
      exact Memory.read_write_same m k b
    | succ n =>
      rw [List.getElem_cons_succ, ← ih (m := m.write k b) (k := k + 1) (Nat.lt_of_succ_lt_succ h)]
      congr 1
      omega

end Image

theorem word_toNat_low_first (h l : Byte) : (word h l).toNat = l.toNat + 256 * h.toNat := by
  rw [word_toNat]
  omega

/-- An image that ends within memory: its bytes at ascending addresses, and nothing else changed but notifications. -/
theorem loadRawImage_of_fits {l h : Byte} {rest : List Byte} (s : State)
    (fits : l.toNat + 256 * h.toNat + rest.length ≤ 65536) :
    ∃ t, loadRawImage (l :: h :: rest) s = .next t ∧ t.mem = storeBytes s.mem (l.toNat + 256 * h.toNat) rest ∧
      t = { s with mem := t.mem, delivered := t.delivered } := by
  rw [loadRawImage, word_toNat_low_first, if_pos fits]
  exact ⟨_, rfl, rfl, rfl⟩

theorem loadRawImage_of_pastEnd {l h : Byte} {rest : List Byte} (s : State)
    (past : 65536 < l.toNat + 256 * h.toNat + rest.length) :
    loadRawImage (l :: h :: rest) s = .refused .imagePastEnd := by
  rw [loadRawImage, word_toNat_low_first, if_neg (Nat.not_le.mpr past)]

theorem loadRawImage_of_tooShort {bytes : List Byte} (s : State) (short : bytes.length < 2) :
    loadRawImage bytes s = .refused .imageTooShort := by
  match bytes, short with
  | [], _ => rfl
  | [_], _ => rfl
  | _ :: _ :: rest, short => exact absurd short (by simp)

theorem State.memRead_add_ofNat {s : State} {a : Addr} {k : Nat} (h : a.toNat + k < 65536) :
    s.memRead (a + BitVec.ofNat 16 k) = s.mem.read (a.toNat + k) := by
  rw [State.memRead, BitVec.toNat_add, BitVec.toNat_ofNat, Nat.add_mod_mod, Nat.mod_eq_of_lt h]

/-- Settles O55: a poke is a byte write, an image is its bytes stored or one of two refusals, and a range that runs
upwards stays within memory. -/
theorem hostMemoryOperations : Obligations.HostMemoryOperations := by
  intro s
  refine ⟨fun _ => rfl, fun a v => s.storesByte_memWrite v a, fun l h rest => ?image,
    fun _ => loadRawImage_of_tooShort s, fun a b hab => ?range⟩
  case image =>
    intro base
    refine ⟨fun fits => ?_, loadRawImage_of_pastEnd s⟩
    obtain ⟨t, loaded, hmem, same⟩ := loadRawImage_of_fits s fits
    refine ⟨t, loaded, fun k hk => ?inside, fun a ha => ?outside, same⟩
    case inside => rw [hmem, storeBytes_read_inside hk]
    case outside => rw [hmem, storeBytes_read_outside ha]
  case range =>
    have length : (readRange s a b).length = b.toNat - a.toNat + s.cfg.readRangeInclusive.toNat := by
      rw [readRange, List.length_map, List.length_range]
      omega
    refine ⟨length, fun k hk => ?_⟩
    have hb := b.isLt
    have inclusive := s.cfg.readRangeInclusive.toNat_le
    have within : a.toNat + k < 65536 := by omega
    simp only [readRange, List.getElem_map, List.getElem_range]
    exact State.memRead_add_ofNat within

end Sys2Proof.Machine
end

section
/-! SUPPORT. Runs (60_exceptions.md rules R285, R286): the loop's result as a number of steps, each made with `B` clear,
and one of three ends. -/

namespace Sys2Proof.Machine

/-- `k` steps lead from `s` to `t`, each made with `B` clear. -/
structure StepsWithBClear (k : Nat) (s t : State) : Prop where
  arrives : stepTimes k s = .next t
  clear : ∀ j, j < k → ∃ u : State, stepTimes j s = .next u ∧ u.flags.b = false

/-- The three ends of rule R286, for a run of `k` steps with a budget of `max`. -/
def EndsInOneOfThreeWays (max k : Nat) (ended : RunEnd) (t : State) : Prop :=
  (ended = .brk ∧ t.flags.b = true ∧ k ≤ max) ∨ (ended = .budget ∧ t.flags.b = false ∧ k = max) ∨
    ∃ f, ended = .fatal f ∧ step t = .fault f ∧ t.flags.b = false ∧ k < max

section Steps

variable {s t u : State} {k : Nat}

theorem StepsWithBClear.zero (s : State) : StepsWithBClear 0 s s := ⟨rfl, nofun⟩

theorem stepTimes_succ_of_step (h : step s = .next t) (k : Nat) : stepTimes (k + 1) s = stepTimes k t := by
  rw [stepTimes, h]

theorem StepsWithBClear.head (hb : s.flags.b = false) (hstep : step s = .next t) (h : StepsWithBClear k t u) :
    StepsWithBClear (k + 1) s u := by
  refine ⟨by rw [stepTimes_succ_of_step hstep, h.arrives], fun j hj => ?_⟩
  cases j with
  | zero => exact ⟨s, rfl, hb⟩
  | succ j =>
    rw [stepTimes_succ_of_step hstep]
    exact h.clear j (Nat.lt_of_succ_lt_succ hj)

/-- The last of several steps. -/
theorem exists_last_step (h : stepTimes (k + 1) s = .next t) : ∃ u, stepTimes k s = .next u ∧ step u = .next t := by
  induction k generalizing s with
  | zero =>
    refine ⟨s, rfl, ?_⟩
    rw [stepTimes] at h
    split at h
    next u hstep => exact hstep.trans h
    all_goals cases h
  | succ k ih =>
    rw [stepTimes] at h
    split at h
    next v hstep =>
      obtain ⟨u, before, last⟩ := ih h
      exact ⟨u, by rw [stepTimes_succ_of_step hstep, before], last⟩
    all_goals cases h

theorem stepTimes_opCount (h : stepTimes k s = .next t) : t.opCount = s.opCount + k := by
  induction k generalizing t with
  | zero => cases h; rfl
  | succ k ih =>
    obtain ⟨u, before, last⟩ := exists_last_step h
    obtain ⟨counted, -⟩ := stepCountsAndKeepsHiddenState u t last
    rw [counted, ih before, Nat.add_assoc]

end Steps

/-- The loop of rule R285 makes some number of steps and ends in one of three ways; a step never refuses. -/
theorem runLoop_spec (fuel : Nat) (s : State) (n : Nat) :
    ∃ k, (runLoop fuel s n).steps = n + k ∧ StepsWithBClear k s (runLoop fuel s n).state ∧
      EndsInOneOfThreeWays fuel k (runLoop fuel s n).ended (runLoop fuel s n).state := by
  induction fuel generalizing s n with
  | zero =>
    refine ⟨0, rfl, .zero s, ?_⟩
    cases hb : s.flags.b with
    | true => exact .inl ⟨if_pos hb, hb, Nat.le_refl 0⟩
    | false => exact .inr (.inl ⟨if_neg (ne_true_of_eq_false hb), hb, rfl⟩)
  | succ fuel ih =>
    rw [runLoop]
    cases hb : s.flags.b with
    | true => exact ⟨0, rfl, .zero s, .inl ⟨rfl, hb, Nat.zero_le _⟩⟩
    | false =>
      rw [if_neg Bool.false_ne_true]
      cases hstep : step s with
      | next t =>
        obtain ⟨k, steps, path, ends⟩ := ih t (n + 1)
        refine ⟨k + 1, by rw [steps]; omega, path.head hb hstep, ?_⟩
        obtain ⟨he, hb, hk⟩ | ⟨he, hb, hk⟩ | ⟨f, he, hf, hb, hk⟩ := ends
        · exact .inl ⟨he, hb, Nat.succ_le_succ hk⟩
        · exact .inr (.inl ⟨he, hb, congrArg (· + 1) hk⟩)
        · exact .inr (.inr ⟨f, he, hf, hb, Nat.succ_lt_succ hk⟩)
      | fault f => exact ⟨0, rfl, .zero s, .inr (.inr ⟨f, rfl, hstep, hb, Nat.succ_pos fuel⟩)⟩
      | refused r =>
        obtain ⟨-, noRefusal, -⟩ := onlyUnmappedOpcodesAreFatal s
        exact absurd hstep (noRefusal r)

/-- `B` is set by BRK, PLP, RTI and a trap visit alone (10_state.md rule R26). -/
theorem step_sets_b {s t : State} (hstep : step s = .next t) (hs : s.flags.b = false) (ht : t.flags.b = true) :
    (trapAt s.trapTable s.pc).isSome = true ∨ ∃ i, fetch s = some i ∧ i.mnemonic ∈ [Mnemonic.brk, .plp, .rti] := by
  obtain ⟨trap, htrap, -⟩ | ⟨-, i, hf, rfl⟩ := step_cases hstep
  · exact .inl (Option.isSome_iff_exists.mpr ⟨trap, htrap⟩)
  · refine .inr ⟨i, hf, by_contra fun hw => ?_⟩
    have kept : (afterExec i (beginInstr i s)).flags.b = s.flags.b := get_afterExec (p := .b) _ hw nofun
    rw [finishInstr_eq, ← afterExec] at ht
    exact absurd (ht.symm.trans (kept.trans hs)) Bool.noConfusion

theorem run_spec (start : Addr) (max : Nat) (s : State) :
    let r := run start max s
    StepsWithBClear r.steps (announceJump .runStart s (s.withPc start)) r.state ∧
      EndsInOneOfThreeWays max r.steps r.ended r.state := by
  intro r
  obtain ⟨k, steps, path, ends⟩ := runLoop_spec max (announceJump .runStart s (s.withPc start)) 0
  obtain rfl : r.steps = k := steps.trans (Nat.zero_add k)
  exact ⟨path, ends⟩

theorem EndsInOneOfThreeWays.steps_le {max k : Nat} {ended : RunEnd} {t : State}
    (h : EndsInOneOfThreeWays max k ended t) : k ≤ max := by
  obtain ⟨-, -, hk⟩ | ⟨-, -, hk⟩ | ⟨-, -, -, -, hk⟩ := h <;> omega

/-- A run that ends on a break ends with `B` set. -/
theorem EndsInOneOfThreeWays.b_of_brk {max k : Nat} {t : State} (h : EndsInOneOfThreeWays max k .brk t) :
    t.flags.b = true := by
  obtain ⟨-, hb, -⟩ | ⟨hbudget, -⟩ | ⟨_, hfatal, -⟩ := h
  · exact hb
  · cases hbudget
  · cases hfatal

/-- No step is made with `B` set, or without a budget. -/
theorem StepsWithBClear.eq_zero {max k : Nat} {s t : State} (h : StepsWithBClear k s t) (hk : k ≤ max)
    (hs : s.flags.b = true ∨ max = 0) : k = 0 := by
  cases k with
  | zero => rfl
  | succ k =>
    obtain ⟨u, start, clear⟩ := h.clear 0 (Nat.succ_pos k)
    cases start
    obtain hb | rfl := hs
    · exact absurd (hb.symm.trans clear) Bool.noConfusion
    · exact absurd hk (Nat.not_succ_le_zero k)

/-- Settles O54: the steps and the end are the loop's; `opCount` counts each step; and a step that ends a run on a break
is one that sets `B`, for it was made with `B` clear. -/
theorem runEndsInOneOfThreeWays : Obligations.RunEndsInOneOfThreeWays := by
  intro start max s r
  obtain ⟨path, ends⟩ := run_spec start max s
  refine ⟨announceJump .runStart s (s.withPc start), rfl, path.arrives, path.clear, ?count, ends,
    fun hs => ?noStep, fun n hbrk hn => ?last⟩
  case count =>
    have counted := stepTimes_opCount path.arrives
    exact counted
  case noStep =>
    have none : r.steps = 0 := path.eq_zero ends.steps_le hs
    have arrives : stepTimes r.steps _ = .next r.state := path.arrives
    rw [none] at arrives
    exact ⟨none, (Host.Outcome.next.inj arrives).symm⟩
  case last =>
    have arrives : stepTimes r.steps _ = .next r.state := path.arrives
    rw [hn] at arrives
    obtain ⟨u, before, last⟩ := exists_last_step arrives
    obtain ⟨u', before', clear⟩ := path.clear n (hn ▸ Nat.lt_succ_self n)
    obtain rfl := Host.Outcome.next.inj (before.symm.trans before')
    have hb : r.state.flags.b = true := (hbrk ▸ ends : EndsInOneOfThreeWays max r.steps .brk r.state).b_of_brk
    exact ⟨u, before, last, step_sets_b last clear hb⟩

end Sys2Proof.Machine
end
